-- ==== Sys2Proof/Word.lean ====
section
/-! DEFINITION. The words FCSP's fields and operands are made of (spec/00_scope.md R10). -/

namespace Sys2Proof

/-- A byte, the spec's `u8` (R10). -/
abbrev Byte := BitVec 8

/-- The spec's `u32`: an unsigned 32-bit integer (R10). -/
abbrev U32 := BitVec 32

/-- The spec's `i32`: 32 bits read in two's complement by `BitVec.toInt` (R10, `toSigned32`). -/
abbrev I32 := BitVec 32

end Sys2Proof
end

