-- ==== Sys2Proof/Config.lean ====
section
/-! DEFINITION. What an implementation fixes (spec/00_scope.md R9) and the one value the spec leaves free. -/

namespace Sys2Proof

/-- `CRC_DATA_BIT_ORDER` (R9, R101): in which order the bits of a byte enter the CRC. -/
inductive BitOrder where
  | msbFirst
  | lsbFirst
  deriving DecidableEq, Repr

/-- The two parameters R9 makes arguments of the model (92_eei_decisions.md D6, D7). -/
structure Config where
  /-- `CRC_DATA_BIT_ORDER` -/
  crcOrder : BitOrder
  /-- `SYNC_BYTE` -/
  syncByte : Byte
  deriving DecidableEq, Repr

/-- The free bits: the `n`-th draw `dz` of MOVE (41_step_pulse.md R135, 92_eei_decisions.md D12). It has no body, so
nothing can be proved of a particular bit: log entry 4. -/
opaque Config.freeDir : Nat → Bool

end Sys2Proof
end

