-- ==== Sys2Proof/Machine/Params.lean ====
section
/-! DEFINITION. The parameter table of spec/00_scope.md R9: the values the source gives. -/

namespace Sys2Proof.Machine

/-- R9's defaults for the two parameters that are arguments of the model. -/
def defaultConfig : Config := { crcOrder := .msbFirst, syncByte := 0x55 }

/-- `WRITE_FLAG`: bit 7 of the register byte (R9, R80). -/
def writeFlag : Byte := 0x80

/-- `MAX_DRIVERS`: legal driver addresses are below it (R9, R79). -/
def maxDrivers : Nat := 4

/-- `DEFAULT_DRIVER_ADDR`, used by the host (R9, R85). -/
def defaultDriverAddr : Byte := 0

/-- `REG_LIMIT`: legal register addresses are below it (R9, R80). -/
def regLimit : Nat := 0x80

/-- `READBACK_LEN` (R9, R78). -/
def readbackLen : Nat := 12

/-- `CRC_POLY` (R9, R101). -/
def crcPoly : Byte := 0x07

/-- `CRC_INIT` (R9, R101). -/
def crcInit : Byte := 0x00

/-- `STEPS_PER_REV` (R9, R130). -/
def stepsPerRev : Nat := 200

/-- `LEGAL_MDIV` (R9, R132). -/
def legalDivisors : List Nat := [1, 2, 4, 8, 16, 32, 64, 128, 256]

/-- `DEFAULT_MDIV`, applied by the host's INITIALIZE and not by reset (R9, R85, 92_eei_decisions.md D16). -/
def defaultDivisor : U32 := 8

end Sys2Proof.Machine
end

