-- ==== Sys2Proof/Machine/Operands.lean ====
section
/-! DEFINITION. The computations on operands: the CRC-8, byte order, the two request frames, the checks on register
and driver addresses, and the arithmetic of the step-pulse unit. -/

namespace Sys2Proof.Machine

/-! ### CRC-8 (spec/40_codec.md R101) -/

/-- `BITS` of R101: the order in which a byte's bits enter. -/
def crcBits : BitOrder → List Nat
  | .msbFirst => [7, 6, 5, 4, 3, 2, 1, 0]
  | .lsbFirst => [0, 1, 2, 3, 4, 5, 6, 7]

/-- One turn of R101's inner loop: the feedback bit, the shift, the polynomial. -/
def crcStep (b c : Byte) (i : Nat) : Byte :=
  let fb := (c.getLsbD 7).xor (b.getLsbD i)
  let shifted := c <<< 1
  if fb then shifted ^^^ crcPoly else shifted

/-- The inner loop of R101 over one byte `b`, from the CRC `c`. DESIGN CHOICE (log entry 14): least significant bit first,
R102 (c) claims a table form that this loop does not have; the loop is what is followed. -/
def crcByte (order : BitOrder) (c b : Byte) : Byte :=
  (crcBits order).foldl (crcStep b) c

/-- `crc8(bs)` of R101. -/
def crc8 (order : BitOrder) (bs : List Byte) : Byte :=
  bs.foldl (crcByte order) crcInit

/-! ### Byte order (spec/20_memory.md R53, spec/30_encoding.md R81) -/

/-- The four bytes of `u`, big-endian (R53). -/
def be32 (u : U32) : List Byte :=
  [u.extractLsb' 24 8, u.extractLsb' 16 8, u.extractLsb' 8 8, u.extractLsb' 0 8]

/-- The 32-bit value whose big-endian bytes are `b3`, `b2`, `b1`, `b0` (R81). -/
def ofBe32 (b3 b2 b1 b0 : Byte) : U32 :=
  b3 ++ b2 ++ b1 ++ b0

/-- `bs[i..j)` (R10). -/
def slice (bs : List Byte) (i j : Nat) : List Byte :=
  (bs.drop i).take (j - i)

/-- `bs[i]` for an offset inside the sequence (R10). -/
def byteAt (bs : List Byte) (i : Nat) : Byte :=
  bs.getD i 0

/-! ### Frames (spec/30_encoding.md R75, R76) -/

/-- A body followed by its checksum. -/
def sealFrame (cfg : Config) (body : List Byte) : List Byte :=
  body ++ [crc8 cfg.crcOrder body]

/-- The read-request frame of R75. -/
def readFrame (cfg : Config) (addr reg : Byte) : List Byte :=
  sealFrame cfg [cfg.syncByte, addr, reg]

/-- The write-request frame of R76, its value already reduced to 32 bits. -/
def writeFrame (cfg : Config) (addr reg : Byte) (u : U32) : List Byte :=
  sealFrame cfg ([cfg.syncByte, addr, reg ||| writeFlag] ++ be32 u)

/-- `addr` is a legal driver address (R79). -/
def legalAddr (addr : Byte) : Bool := addr.toNat < maxDrivers

/-- `reg` is a legal register operand: bit 7 is clear (R80). -/
def legalReg (reg : Byte) : Bool := reg.toNat < regLimit

/-! ### Step-pulse arithmetic (spec/41_step_pulse.md R130, R132, R133, R142) -/

/-- `legalDiv(d)` of R132. -/
def legalDiv (d : Nat) : Bool := legalDivisors.contains d

/-- `MRES(d)` of R133, `8 - log2(d)` in four bits. -/
def mres (d : Nat) : BitVec 4 := BitVec.ofNat 4 (8 - Nat.log2 d)

/-- `DELAY(rpm, mdiv)` of R130, in exact rational milliseconds; applied only with neither operand 0. -/
def delayMs (rpm : U32) (mdiv : Nat) : Rat :=
  1000 / (((rpm.toNat * stepsPerRev * mdiv : Nat) : Rat) / 60)

/-- The delay a MOVE stores (R135): 0 for `rpm = 0`. -/
def moveDelay (rpm : U32) (mdiv : Nat) : Rat :=
  if rpm = 0 then 0 else delayMs rpm mdiv

/-- `|steps|` as a `u32` (R135, R142); `|-2^31| = 2^31` fits. -/
def absSteps (steps : I32) : U32 := BitVec.ofNat 32 steps.toInt.natAbs

/-- The DIR level of a MOVE (R135): forward 1, reverse 0, and the draw `dz` for no step at all. -/
def moveDir (steps : I32) (dz : Bool) : Bool :=
  if 0 < steps.toInt then true
  else if steps.toInt < 0 then false
  else dz

end Sys2Proof.Machine
end

