-- ==== Sys2Proof/Syntax.lean ====
section
/-! DEFINITION. The instructions: one constructor per row of spec/opcode_table.json, the ten commands of
spec/30_encoding.md R72 and the four frame layouts of R75 to R78; the records they arrive in; the pseudo-commands. -/

namespace Sys2Proof

/-- Every row of spec/opcode_table.json. -/
inductive Instr where
  /-- `CRC8 bs` (R103) -/
  | crc8 (bs : List Byte)
  /-- `ENCODE_READ addr, reg` (R104) -/
  | encodeRead (addr reg : Byte)
  /-- `ENCODE_WRITE addr, reg, value` (R105) -/
  | encodeWrite (addr reg : Byte) (value : Int)
  /-- `CHECK_FRAME bs` (R106) -/
  | checkFrame (bs : List Byte)
  /-- `VALIDATE_READBACK bs` (R107) -/
  | validateReadback (bs : List Byte)
  /-- `SET_DIVISOR d` (R134) -/
  | setDivisor (d : U32)
  /-- `MOVE steps, rpm, now` (R135) -/
  | move (steps : I32) (rpm : U32) (now : Rat)
  /-- `POLL now` (R136) -/
  | poll (now : Rat)
  /-- `STOP` (R137) -/
  | stop
  /-- `VELOCITY_MODE` (R138) -/
  | velocityMode
  /-- The frame READ_REQUEST (R75): the table's fields `a`, `r`, `c`. -/
  | readRequest (addr : BitVec 2) (reg : BitVec 7) (crc : Byte)
  /-- The frame WRITE_REQUEST (R76): the table's fields `a`, `r`, `v`, `c`. -/
  | writeRequest (addr : BitVec 2) (reg : BitVec 7) (value : U32) (crc : Byte)
  /-- The frame REPLY (R77): the table's fields `y`, `a`, `r`, `d`, `c`. -/
  | reply (sync addr reg : Byte) (data : U32) (crc : Byte)
  /-- The frame READBACK (R78): the table's fields `e`, `y`, `a`, `r`, `d`, `c`. -/
  | readback (echo : U32) (sync addr reg : Byte) (data : U32) (crc : Byte)
  deriving DecidableEq, Repr

/-- A typed operand value of a command record (R71, R72, R74). -/
inductive Operand where
  /-- a byte sequence of any length -/
  | bytes (bs : List Byte)
  | u8 (v : Byte)
  | u32 (v : U32)
  | i32 (v : I32)
  | int (v : Int)
  /-- a time, an exact rational number of milliseconds -/
  | rat (v : Rat)
  deriving DecidableEq, Repr

/-- The operand types of R72's table. -/
inductive OperandKind where
  | bytes
  | u8
  | u32
  | i32
  | int
  | rat
  deriving DecidableEq, Repr

/-- The type a typed operand has. -/
def Operand.kind : Operand → OperandKind
  | .bytes _ => .bytes
  | .u8 _ => .u8
  | .u32 _ => .u32
  | .i32 _ => .i32
  | .int _ => .int
  | .rat _ => .rat

/-- What stands before the decoder: R70's two layers. -/
inductive Record where
  /-- A command record `{op, operands}` (R71). -/
  | command (op : Byte) (operands : List Operand)
  /-- The bytes of a frame travelling to the driver, offset 0 first: a request (R75, R76). -/
  | request (bytes : List Byte)
  /-- The bytes of a frame coming from the driver, offset 0 first: a reply or a read-back (R77, R78). -/
  | received (bytes : List Byte)
  deriving DecidableEq, Repr

/-- The pseudo-commands of R85. -/
inductive Pseudo where
  /-- `INITIALIZE` -/
  | initializeUnit
  /-- `ENCODE_READ reg` -/
  | encodeReadDefault (reg : Byte)
  /-- `ENCODE_WRITE reg, value` -/
  | encodeWriteDefault (reg : Byte) (value : Int)
  /-- `CHECK_WRITE_ECHO bs` -/
  | checkWriteEcho (bs : List Byte)
  /-- `RUN_CONTINUOUS` -/
  | runContinuous
  deriving DecidableEq, Repr

end Sys2Proof
end

