-- ==== Sys2Proof/WellFormed.lean ====
section
/-! DEFINITION. Which instructions have legal operands: the ranges of spec/30_encoding.md R72, R74, R79, R80 and R83
that the types of Syntax.lean do not carry. -/

namespace Sys2Proof

open Sys2Proof.Machine

/-- Every operand is in its legal range (R74, R83): `addr < 4`, `reg < 0x80`, and at least one byte for CHECK_FRAME
(R72). Every other operand value is legal, and a frame's fields are bounded by their types. An instruction that is not
well formed can still be issued: it raises the fault the spec names. -/
def Instr.wellFormed : Instr → Bool
  | .crc8 _ => true
  | .encodeRead addr reg => legalAddr addr && legalReg reg
  | .encodeWrite addr reg _ => legalAddr addr && legalReg reg
  | .checkFrame bs => !bs.isEmpty
  | .validateReadback _ => true
  | .setDivisor _ => true
  | .move _ _ _ => true
  | .poll _ => true
  | .stop => true
  | .velocityMode => true
  | .readRequest _ _ _ => true
  | .writeRequest _ _ _ _ => true
  | .reply _ _ _ _ _ => true
  | .readback _ _ _ _ _ _ => true

end Sys2Proof
end

