-- ==== Sys2Proof/Decode.lean ====
section
/-! DEFINITION. The decoder of records (spec/30_encoding.md R71 to R73 for commands, R75 to R78 and R82 for frames),
the encoder written from the same tables, the pseudo-commands of R85, and the reading of a word numbered as
spec/opcode_table.json numbers it. -/

namespace Sys2Proof

open Sys2Proof.Machine

/-- Why the decoder refuses a record. -/
inductive DecodeError where
  /-- The op byte is not in R72's table (R73): the command exists and raises `ILLEGAL_COMMAND`. -/
  | illegalOp (op : Byte)
  /-- The op byte is legal and the operand list is not the one R72 gives it: R71 says it cannot be written down. -/
  | operandMismatch (op : Byte)
  /-- The bytes are of none of the layouts R75 to R78. -/
  | notAFrame
  deriving DecidableEq, Repr

/-- The operands column of R72's table: the operand types of a legal op byte, none for an illegal one (R73). -/
def operandKinds (op : Byte) : Option (List OperandKind) :=
  match op.toNat with
  | 0x01 => some [.bytes]
  | 0x02 => some [.u8, .u8]
  | 0x03 => some [.u8, .u8, .int]
  | 0x04 => some [.bytes]
  | 0x05 => some [.bytes]
  | 0x10 => some [.u32]
  | 0x11 => some [.i32, .u32, .rat]
  | 0x12 => some [.rat]
  | 0x13 => some []
  | 0x14 => some []
  | _ => none

/-- A command record: the op byte first, then the operand list R72 gives for it (R71). -/
def decodeCommand (op : Byte) (operands : List Operand) : Except DecodeError Instr :=
  match op.toNat with
  | 0x01 =>
    match operands with
    | [.bytes bs] => .ok (.crc8 bs)
    | _ => .error (.operandMismatch op)
  | 0x02 =>
    match operands with
    | [.u8 addr, .u8 reg] => .ok (.encodeRead addr reg)
    | _ => .error (.operandMismatch op)
  | 0x03 =>
    match operands with
    | [.u8 addr, .u8 reg, .int value] => .ok (.encodeWrite addr reg value)
    | _ => .error (.operandMismatch op)
  | 0x04 =>
    match operands with
    | [.bytes bs] => .ok (.checkFrame bs)
    | _ => .error (.operandMismatch op)
  | 0x05 =>
    match operands with
    | [.bytes bs] => .ok (.validateReadback bs)
    | _ => .error (.operandMismatch op)
  | 0x10 =>
    match operands with
    | [.u32 d] => .ok (.setDivisor d)
    | _ => .error (.operandMismatch op)
  | 0x11 =>
    match operands with
    | [.i32 steps, .u32 rpm, .rat now] => .ok (.move steps rpm now)
    | _ => .error (.operandMismatch op)
  | 0x12 =>
    match operands with
    | [.rat now] => .ok (.poll now)
    | _ => .error (.operandMismatch op)
  | 0x13 =>
    match operands with
    | [] => .ok .stop
    | _ => .error (.operandMismatch op)
  | 0x14 =>
    match operands with
    | [] => .ok .velocityMode
    | _ => .error (.operandMismatch op)
  | _ => .error (.illegalOp op)

/-- A request frame: sync byte, a driver address below 4, then bit 7 of the register byte tells a read request of 4
bytes from a write request of 8 (R75, R76, R82). The checksum byte is read, not checked. -/
def decodeRequest (cfg : Config) : List Byte → Except DecodeError Instr
  | [s, a, r, c] =>
    if s = cfg.syncByte ∧ legalAddr a = true ∧ legalReg r = true then
      .ok (.readRequest (a.setWidth 2) (r.setWidth 7) c)
    else .error .notAFrame
  | [s, a, r, v3, v2, v1, v0, c] =>
    if s = cfg.syncByte ∧ legalAddr a = true ∧ legalReg r = false then
      .ok (.writeRequest (a.setWidth 2) (r.setWidth 7) (ofBe32 v3 v2 v1 v0) c)
    else .error .notAFrame
  | _ => .error .notAFrame

/-- A received frame: a reply of 8 bytes or a read-back of 12 (R77, R78, R82). Neither has a fixed bit. -/
def decodeReceived : List Byte → Except DecodeError Instr
  | [y, a, r, d3, d2, d1, d0, c] => .ok (.reply y a r (ofBe32 d3 d2 d1 d0) c)
  | [e3, e2, e1, e0, y, a, r, d3, d2, d1, d0, c] =>
    .ok (.readback (ofBe32 e3 e2 e1 e0) y a r (ofBe32 d3 d2 d1 d0) c)
  | _ => .error .notAFrame

/-- The decoder. -/
def decode (cfg : Config) : Record → Except DecodeError Instr
  | .command op operands => decodeCommand op operands
  | .request bytes => decodeRequest cfg bytes
  | .received bytes => decodeReceived bytes

/-- The encoder: R72's op bytes and operand lists, R75 to R78's layouts. -/
def encode (cfg : Config) : Instr → Record
  | .crc8 bs => .command 0x01 [.bytes bs]
  | .encodeRead addr reg => .command 0x02 [.u8 addr, .u8 reg]
  | .encodeWrite addr reg value => .command 0x03 [.u8 addr, .u8 reg, .int value]
  | .checkFrame bs => .command 0x04 [.bytes bs]
  | .validateReadback bs => .command 0x05 [.bytes bs]
  | .setDivisor d => .command 0x10 [.u32 d]
  | .move steps rpm now => .command 0x11 [.i32 steps, .u32 rpm, .rat now]
  | .poll now => .command 0x12 [.rat now]
  | .stop => .command 0x13 []
  | .velocityMode => .command 0x14 []
  | .readRequest addr reg crc =>
    .request [cfg.syncByte, addr.setWidth 8, reg.setWidth 8, crc]
  | .writeRequest addr reg value crc =>
    .request ([cfg.syncByte, addr.setWidth 8, reg.setWidth 8 ||| writeFlag] ++ be32 value ++ [crc])
  | .reply sync addr reg data crc =>
    .received ([sync, addr, reg] ++ be32 data ++ [crc])
  | .readback echo sync addr reg data crc =>
    .received (be32 echo ++ [sync, addr, reg] ++ be32 data ++ [crc])

/-- The expansion of a pseudo-command (R85); CHECK_WRITE_ECHO is legal only with 8 bytes. -/
def Pseudo.expand : Pseudo → Option Instr
  | .initializeUnit => some (.setDivisor defaultDivisor)
  | .encodeReadDefault reg => some (.encodeRead defaultDriverAddr reg)
  | .encodeWriteDefault reg value => some (.encodeWrite defaultDriverAddr reg value)
  | .checkWriteEcho bs => if bs.length = 8 then some (.checkFrame bs) else none
  | .runContinuous => some .velocityMode

/-! ### Words numbered as the opcode table numbers them -/

/-- The `n` bytes of a frame pattern: offset 0 is the pattern's top byte (R75, R76). -/
def patternBytes : Nat → Nat → List Byte
  | 0, _ => []
  | n + 1, w => BitVec.ofNat 8 (w >>> (8 * n)) :: patternBytes n w

/-- The operands a command record holds when every bit beyond its op byte is 0: zeros, and the shortest byte sequence
R72 allows (one zero byte for CHECK_FRAME, none elsewhere). An op byte outside R72 has none. -/
def zeroOperands (op : Byte) : List Operand :=
  match op.toNat with
  | 0x01 => [.bytes []]
  | 0x02 => [.u8 0, .u8 0]
  | 0x03 => [.u8 0, .u8 0, .int 0]
  | 0x04 => [.bytes [0]]
  | 0x05 => [.bytes []]
  | 0x10 => [.u32 0]
  | 0x11 => [.i32 0, .u32 0, .rat 0]
  | 0x12 => [.rat 0]
  | _ => []

/-- The record the table's word `w` of `nbits` bits stands for: an op byte, or a frame of `nbits / 8` bytes. A frame
with a request's fixed bits is a request, and any other is a received one. -/
def recordOfWord (cfg : Config) (nbits w : Nat) : Record :=
  if nbits ≤ 8 then .command (BitVec.ofNat 8 w) (zeroOperands (BitVec.ofNat 8 w))
  else
    let bytes := patternBytes (nbits / 8) w
    match decodeRequest cfg bytes with
    | .ok _ => .request bytes
    | .error _ => .received bytes

/-- The instruction the decoder reads from the table's word (default parameters). -/
def decodeTableWord (nbits w : Nat) : Option Instr :=
  match decode defaultConfig (recordOfWord defaultConfig nbits w) with
  | .ok i => some i
  | .error _ => none

end Sys2Proof
end

