-- ==== Sys2Proof/Machine/State.lean ====
section
/-! DEFINITION. The state of FCSP (spec/10_state.md R22), its outputs (R33, R34), what the host has sent, the reasons a
step can stop, and the state after power-on (R39, R200, R201). -/

namespace Sys2Proof.Machine

/-- Why the machine is stuck. -/
inductive Fault where
  /-- Raised by the input step when the host asserts reset during a command: spec/93_implementation_defined.md row 18
  says `stuck`, and R200 forbids it to the host. Safe: the model stops where the spec gives no move. -/
  | resetDuringCommand
  deriving DecidableEq, Repr

/-- Why an input has no meaning. -/
inductive Refusal where
  /-- An instruction without a meaning. Safe; no arm of exec answers it in this model. -/
  | notModelled (mnemonic : String)
  /-- Raised by the input step for a record with a legal op byte and an operand list that is not the one R72 gives it:
  R71 says such a command cannot be written down. Safe. -/
  | operandMismatch (op : Byte)
  /-- Raised by the input step for bytes that are of none of the layouts R75 to R78. Safe. -/
  | notAFrame
  deriving DecidableEq, Repr

/-- The status codes' names (spec/60_exceptions.md R175). -/
inductive Status where
  | ok
  | invalidConfig
  | modeBusy
  | shortReply
  | checksumMismatch
  | faulted
  deriving DecidableEq, Repr

/-- The fault codes' names (R171). -/
inductive FaultCode where
  | illegalCommand
  | badDriverAddr
  | badRegister
  | badLength
  | notInitialized
  deriving DecidableEq, Repr

/-- The result beside a status (spec/10_state.md R34, spec/30_encoding.md R72). -/
inductive Result where
  | none
  /-- CRC8's `u8` -/
  | crc (v : Byte)
  /-- the frame an encode command built -/
  | frame (bytes : List Byte)
  /-- CHECK_FRAME's bit -/
  | bit (b : Bool)
  /-- VALIDATE_READBACK's signed datum, the integer `toSigned32(u)` -/
  | datum (v : Int)
  /-- SET_DIVISOR's 4-bit value -/
  | mres (v : BitVec 4)
  /-- the fault code beside `FAULTED` -/
  | code (v : Byte)
  deriving DecidableEq, Repr

/-- A response (R34). -/
structure Response where
  status : Status
  result : Result
  deriving DecidableEq, Repr

/-- An event of the line trace (R33). -/
inductive LineEvent where
  | dir (v : Bool)
  | step (v : Bool)
  | reset
  deriving DecidableEq, Repr

/-- What the host does to FCSP (R8, R205). -/
inductive Input where
  /-- issues a record -/
  | record (r : Record)
  /-- asserts reset between commands (R200) -/
  | reset
  /-- asserts reset during the command `r`, which R200 forbids -/
  | resetDuring (r : Record)
  deriving DecidableEq, Repr

/-- The mode, a function of the state (R32). -/
inductive Mode where
  | idle
  | moving
  | devVel
  deriving DecidableEq, Repr

/-- The record of R22, then the outputs, then the model's own fields (log entries 1, 2, 4 and 5). -/
structure State where
  /-- latched fault code, 0 for none (R23) -/
  fault : Byte
  /-- remaining step count (R24) -/
  remaining : U32
  /-- target RPM of the last MOVE (R25) -/
  rpm : U32
  /-- inter-step delay, milliseconds (R26) -/
  delay : Rat
  /-- absolute time of the next due pulse, milliseconds (R27) -/
  nextDue : Rat
  /-- current microstep divisor, 0 before the first SET_DIVISOR (R28) -/
  mdiv : Nat
  /-- device-velocity mode (R29) -/
  devVel : Bool
  /-- level of the DIR line (R30) -/
  dir : Bool
  /-- level of the STEP line (R31) -/
  step : Bool
  /-- the line trace, oldest event first (R33); no command reads it -/
  trace : List LineEvent
  /-- the responses returned so far, oldest first (R34); no command reads them -/
  responses : List Response
  /-- what the host has sent and FCSP has not taken, next first (R60) -/
  inbox : List Input
  /-- how many free bits have been drawn (log entry 4) -/
  draws : Nat
  /-- the parameters of R9; never written -/
  cfg : Config
  deriving DecidableEq, Repr

/-- Power-on: every field of R22 at 0 and the trace holding the one RESET (R39, R200, R201); no response yet, nothing
sent. -/
def State.reset : State :=
  { fault := 0, remaining := 0, rpm := 0, delay := 0, nextDue := 0, mdiv := 0, devVel := false, dir := false,
    step := false, trace := [.reset], responses := [], inbox := [], draws := 0, cfg := defaultConfig }

/-- What a step or a meaning answers. -/
abbrev Answer := Host.Outcome State Fault Refusal

end Sys2Proof.Machine
end

