-- ==== Sys2Proof/Machine/Flags.lean ====
section
/-! DEFINITION. FCSP has no flag register (spec/10_state.md R32); what it computes instead: the mode, the numeric codes
of statuses and faults (spec/60_exceptions.md R171, R175) and the verdicts on received bytes (spec/40_codec.md R106,
R107). -/

namespace Sys2Proof.Machine

/-- `mode(s)` of R32. -/
def State.mode (s : State) : Mode :=
  if s.devVel then .devVel
  else if s.remaining = 0 then .idle
  else .moving

/-- The code of a fault (R171). -/
def FaultCode.code : FaultCode → Byte
  | .illegalCommand => 0x01
  | .badDriverAddr => 0x02
  | .badRegister => 0x03
  | .badLength => 0x04
  | .notInitialized => 0x05

/-- The code of a status (R175). -/
def Status.code : Status → Byte
  | .ok => 0x00
  | .invalidConfig => 0x01
  | .modeBusy => 0x02
  | .shortReply => 0x03
  | .checksumMismatch => 0x04
  | .faulted => 0xFF

end Sys2Proof.Machine
end

