-- ==== Sys2Proof/Machine/Ops.lean ====
section
/-! DEFINITION. The operations every meaning is made of: responding, driving the lines, taking a fault, the command
prologue, reset, and the writes of the step-pulse unit. -/

namespace Sys2Proof.Machine

/-- `respond(status, result)` (spec/00_scope.md R11, spec/10_state.md R34). -/
def State.respond (s : State) (status : Status) (result : Result) : State :=
  { s with responses := s.responses ++ [⟨status, result⟩] }

/-- `drive DIR v; s.dir <- v` (R33, R135). -/
def State.driveDir (s : State) (v : Bool) : State :=
  { s with dir := v, trace := s.trace ++ [.dir v] }

/-- `drive STEP v; s.step <- v` (R33, R131). -/
def State.driveStep (s : State) (v : Bool) : State :=
  { s with step := v, trace := s.trace ++ [.step v] }

/-- `PULSE` (spec/41_step_pulse.md R131). -/
def State.pulse (s : State) : State :=
  (s.driveStep true).driveStep false

/-- Taking a fault, `raise Fault(code)` (spec/60_exceptions.md R172): latch the code and respond; nothing else. -/
def State.raise (s : State) (c : FaultCode) : State :=
  State.respond { s with fault := c.code } .faulted (.code c.code)

/-- Reset (spec/70_reset_and_hazards.md R200), the only way out of a latched fault (R174). It returns no response, and
leaves the model's own fields as they are. -/
def State.applyReset (s : State) : State :=
  { s with fault := 0, remaining := 0, rpm := 0, delay := 0, nextDue := 0, mdiv := 0, devVel := false, dir := false,
           step := false, trace := s.trace ++ [.reset] }

/-- The command prologue (R173): while a fault is latched the command is refused with the latched code. The op byte
has been found legal when a meaning runs. -/
def prologue (s : State) (body : State → Answer) : Answer :=
  if s.fault = 0 then body s else .next (s.respond .faulted (.code s.fault))

/-- The two address checks of the encode commands, in R176's order, then the rest of the command. -/
def withLegalTarget (addr reg : Byte) (s : State) (body : State → Answer) : Answer :=
  if legalAddr addr = false then .next (s.raise .badDriverAddr)
  else if legalReg reg = false then .next (s.raise .badRegister)
  else body s

/-- ENCODE_READ after its prologue (spec/40_codec.md R104). -/
def buildRead (addr reg : Byte) (s : State) : Answer :=
  withLegalTarget addr reg s fun s => .next (s.respond .ok (.frame (readFrame s.cfg addr reg)))

/-- ENCODE_WRITE after its prologue (R105); the value is taken mod 2^32. -/
def buildWrite (addr reg : Byte) (value : Int) (s : State) : Answer :=
  withLegalTarget addr reg s fun s =>
    .next (s.respond .ok (.frame (writeFrame s.cfg addr reg (BitVec.ofInt 32 value))))

/-- The verdict of CHECK_FRAME on a non-empty sequence (R106). -/
def frameChecks (order : BitOrder) (bs : List Byte) : Bool :=
  byteAt bs (bs.length - 1) == crc8 order (slice bs 0 (bs.length - 1))

/-- The response of VALIDATE_READBACK (R107): length, then all zero, then checksum, then the datum. -/
def readbackResponse (order : BitOrder) (bs : List Byte) : Response :=
  if bs.length ≠ readbackLen then ⟨.shortReply, .none⟩
  else if bs.all (· == 0) then ⟨.shortReply, .none⟩
  else if byteAt bs 11 ≠ crc8 order (slice bs 4 11) then ⟨.checksumMismatch, .none⟩
  else ⟨.ok, .datum (ofBe32 (byteAt bs 7) (byteAt bs 8) (byteAt bs 9) (byteAt bs 10)).toInt⟩

/-- VALIDATE_READBACK after its prologue. -/
def judgeReadback (bs : List Byte) (s : State) : Answer :=
  let r := readbackResponse s.cfg.crcOrder bs
  .next (s.respond r.status r.result)

/-- `draw dz` (R135): the next free bit is used up (log entry 4). -/
def State.countDraw (s : State) : State :=
  { s with draws := s.draws + 1 }

/-- The count, the RPM and the delay a MOVE stores (R135). -/
def State.loadMove (s : State) (steps : I32) (rpm : U32) : State :=
  { s with remaining := absSteps steps, rpm := rpm, delay := moveDelay rpm s.mdiv }

/-- `s.next_due <- t`. -/
def State.schedule (s : State) (t : Rat) : State :=
  { s with nextDue := t }

/-- `s.remaining <- s.remaining - 1` (R136), applied only when it is not 0 (R142). -/
def State.countStep (s : State) : State :=
  { s with remaining := s.remaining - 1 }

/-- What a due POLL does (R136): decrement, pulse while steps remain, reschedule from `now`. -/
def State.duePoll (s : State) (now : Rat) : State :=
  let s := s.countStep
  let s := if s.remaining = 0 then s else s.pulse
  s.schedule (now + s.delay)

/-- The divisor a legal SET_DIVISOR stores, and the delay it recomputes while `rpm` is not 0 (R134). -/
def State.loadDivisor (s : State) (d : Nat) : State :=
  { s with mdiv := d, delay := if s.rpm = 0 then s.delay else delayMs s.rpm d }

/-- STOP's writes (R137). -/
def State.halt (s : State) : State :=
  { s with remaining := 0, devVel := false }

/-- VELOCITY_MODE's write (R138). -/
def State.enterDevVel (s : State) : State :=
  { s with devVel := true }

end Sys2Proof.Machine
end

