-- ==== Sys2Proof/Machine/Codec.lean ====
section
/-! DEFINITION. The meanings of the FC unit's commands (spec/40_codec.md). -/

namespace Sys2Proof.Machine

/-- CRC8 (R103). -/
def execCrc8 (bs : List Byte) (s : State) : Answer :=
  prologue s fun s => .next (s.respond .ok (.crc (crc8 s.cfg.crcOrder bs)))

/-- ENCODE_READ (R104). -/
def execEncodeRead (addr reg : Byte) (s : State) : Answer :=
  prologue s (buildRead addr reg)

/-- ENCODE_WRITE (R105). -/
def execEncodeWrite (addr reg : Byte) (value : Int) (s : State) : Answer :=
  prologue s (buildWrite addr reg value)

/-- CHECK_FRAME (R106). -/
def execCheckFrame (bs : List Byte) (s : State) : Answer :=
  prologue s fun s =>
    if bs.length = 0 then .next (s.raise .badLength)
    else if frameChecks s.cfg.crcOrder bs then .next (s.respond .ok (.bit true))
    else .next (s.respond .checksumMismatch (.bit false))

/-- VALIDATE_READBACK (R107). -/
def execValidateReadback (bs : List Byte) (s : State) : Answer :=
  prologue s (judgeReadback bs)

end Sys2Proof.Machine
end

