-- ==== Sys2Proof/Machine/Frames.lean ====
section
/-! DEFINITION. The meanings of the four frame rows (spec/30_encoding.md R75 to R78): what FCSP does with such a frame,
under the rule that spec/opcode_table.json names as the row's `semantics_rule` (log entry 3). -/

namespace Sys2Proof.Machine

/-- READ_REQUEST: FCSP builds the frame with this address and register (R104). The checksum byte is FCSP's own output
there (R75), so the one presented is not read. -/
def execReadRequest (addr : BitVec 2) (reg : BitVec 7) (_crc : Byte) (s : State) : Answer :=
  prologue s (buildRead (addr.setWidth 8) (reg.setWidth 8))

/-- WRITE_REQUEST: FCSP builds the frame with this address, register and value (R105). -/
def execWriteRequest (addr : BitVec 2) (reg : BitVec 7) (value : U32) (_crc : Byte) (s : State) : Answer :=
  prologue s (buildWrite (addr.setWidth 8) (reg.setWidth 8) value.toInt)

/-- REPLY: FCSP checks its checksum, which covers its own first 7 bytes, and extracts its datum; sync, address and
register are not checked (R77, R107, R108). -/
def execReply (sync addr reg : Byte) (data : U32) (crc : Byte) (s : State) : Answer :=
  prologue s fun s =>
    if crc = crc8 s.cfg.crcOrder ([sync, addr, reg] ++ be32 data) then .next (s.respond .ok (.datum data.toInt))
    else .next (s.respond .checksumMismatch .none)

/-- READBACK: VALIDATE_READBACK of its 12 bytes (R78, R107). -/
def execReadback (echo : U32) (sync addr reg : Byte) (data : U32) (crc : Byte) (s : State) : Answer :=
  prologue s (judgeReadback (be32 echo ++ [sync, addr, reg] ++ be32 data ++ [crc]))

end Sys2Proof.Machine
end

