-- ==== Sys2Proof/Machine/StepPulse.lean ====
section
/-! DEFINITION. The meanings of the SP unit's commands (spec/41_step_pulse.md). -/

namespace Sys2Proof.Machine

/-- SET_DIVISOR (R134). -/
def execSetDivisor (d : U32) (s : State) : Answer :=
  prologue s fun s =>
    if legalDiv d.toNat then .next ((s.loadDivisor d.toNat).respond .ok (.mres (mres d.toNat)))
    else .next (s.respond .invalidConfig .none)

/-- MOVE (R135): the fault, then the status, then the draw and the writes in pseudocode order. -/
def execMove (steps : I32) (rpm : U32) (now : Rat) (s : State) : Answer :=
  prologue s fun s =>
    if rpm ≠ 0 ∧ s.mdiv = 0 then .next (s.raise .notInitialized)
    else if s.devVel then .next (s.respond .modeBusy .none)
    else
      let dz := Config.freeDir s.draws
      let s := (s.countDraw).driveDir (moveDir steps dz)
      let s := s.loadMove steps rpm
      let s := if steps = 0 then s else s.pulse
      let s := s.schedule (if rpm = 0 then 0 else now + s.delay)
      .next (s.respond .ok .none)

/-- POLL (R136). -/
def execPoll (now : Rat) (s : State) : Answer :=
  prologue s fun s =>
    if s.devVel then .next (s.respond .ok .none)
    else if s.remaining = 0 then .next (s.respond .ok .none)
    else if s.delay = 0 then .next (s.respond .ok .none)
    else if s.nextDue ≤ now then .next ((s.duePoll now).respond .ok .none)
    else .next (s.respond .ok .none)

/-- STOP (R137). -/
def execStop (s : State) : Answer :=
  prologue s fun s => .next (s.halt.respond .ok .none)

/-- VELOCITY_MODE (R138). -/
def execVelocityMode (s : State) : Answer :=
  prologue s fun s => .next (s.enterDevVel.respond .ok .none)

end Sys2Proof.Machine
end

