-- ==== Sys2Proof/Machine/Dispatch.lean ====
section
/-! DEFINITION. One arm per instruction: each calls its meaning. -/

namespace Sys2Proof.Machine

def exec (i : Instr) (s : State) : Host.Outcome State Fault Refusal :=
  match i with
  | .crc8 bs => Sys2Proof.Machine.execCrc8 bs s
  | .encodeRead addr reg => Sys2Proof.Machine.execEncodeRead addr reg s
  | .encodeWrite addr reg value => Sys2Proof.Machine.execEncodeWrite addr reg value s
  | .checkFrame bs => Sys2Proof.Machine.execCheckFrame bs s
  | .validateReadback bs => Sys2Proof.Machine.execValidateReadback bs s
  | .setDivisor d => Sys2Proof.Machine.execSetDivisor d s
  | .move steps rpm now => Sys2Proof.Machine.execMove steps rpm now s
  | .poll now => Sys2Proof.Machine.execPoll now s
  | .stop => Sys2Proof.Machine.execStop s
  | .velocityMode => Sys2Proof.Machine.execVelocityMode s
  | .readRequest addr reg crc => Sys2Proof.Machine.execReadRequest addr reg crc s
  | .writeRequest addr reg value crc => Sys2Proof.Machine.execWriteRequest addr reg value crc s
  | .reply sync addr reg data crc => Sys2Proof.Machine.execReply sync addr reg data crc s
  | .readback echo sync addr reg data crc => Sys2Proof.Machine.execReadback echo sync addr reg data crc s

end Sys2Proof.Machine
end

