-- ==== Sys2Proof/Machine/Input.lean ====
section
/-! DEFINITION. How FCSP takes what the host sends (spec/00_scope.md R7, R8, spec/20_memory.md R60): there is no fetch
(R62); the next input is taken from the front of the inbox. -/

namespace Sys2Proof.Machine

/-- A command whose op byte is not in R72's table (R73), behind the same prologue as every command (R173). -/
def illegalCommand (s : State) : Answer :=
  prologue s fun s => .next (s.raise .illegalCommand)

/-- FCSP is given one record: it is decoded and run. -/
def issueRecord (r : Record) (s : State) : Answer :=
  match decode s.cfg r with
  | .ok i => exec i s
  | .error (.illegalOp _) => illegalCommand s
  | .error (.operandMismatch op) => .refused (.operandMismatch op)
  | .error .notAFrame => .refused .notAFrame

/-- One input is taken. With nothing sent FCSP is idle and holds its state (R182). -/
def takeInput (s : State) : Answer :=
  match s.inbox with
  | [] => .next s
  | .record r :: rest => issueRecord r { s with inbox := rest }
  | .reset :: rest => .next { s.applyReset with inbox := rest }
  | .resetDuring _ :: _ => .fault .resetDuringCommand

/-- `s` with the record `r` next in line. -/
def State.pushRecord (s : State) (r : Record) : State :=
  { s with inbox := .record r :: s.inbox }

end Sys2Proof.Machine
end

