-- ==== Sys2Proof/Machine/Step.lean ====
section
/-! DEFINITION. One step of the machine, and the placing of a word as the next thing it takes. -/

namespace Sys2Proof.Machine

/-- One step: FCSP takes the host's next input (spec/00_scope.md R7). -/
def step (s : State) : Host.Outcome State Fault Refusal :=
  takeInput s

/-- `s` with the opcode table's word as the record FCSP takes next (log entry 6). -/
def State.withFetchWord (s : State) (nbits w : Nat) : State :=
  s.pushRecord (recordOfWord s.cfg nbits w)

end Sys2Proof.Machine
end

