-- ==== Sys2Proof/Machine/Assembler.lean ====
section
/-! DEFINITION. The assembler text of spec/30_encoding.md R84: one command a line, `MNEMONIC operand, operand, ...`, byte
sequences in brackets, numbers decimal, hexadecimal or as fractions, `;` before a comment; the mnemonics and operand
orders of R72 and the pseudo-commands of R85. -/

namespace Sys2Proof.Machine

/-- A token of one line. -/
inductive AsmToken where
  | word (cs : List Char)
  | comma
  | openBracket
  | closeBracket
  deriving DecidableEq, Repr

/-- An operand as it is written. -/
inductive AsmOperand where
  | bytes (bs : List Byte)
  | number (q : Rat)
  deriving DecidableEq, Repr

/-- A character of a mnemonic or a number. -/
def isWordChar (c : Char) : Bool :=
  c.isAlphanum || c == '_' || c == '-' || c == '.' || c == '/'

/-- The word read so far, reversed, put before the tokens read so far. -/
def flushWord (cur : List Char) (acc : List AsmToken) : List AsmToken :=
  if cur.isEmpty then acc else .word cur.reverse :: acc

/-- The tokens of a line, up to a comment; none where a character has no place in one. -/
def lexLine : List Char → List Char → List AsmToken → Option (List AsmToken)
  | [], cur, acc => some (flushWord cur acc).reverse
  | c :: cs, cur, acc =>
    if c = ';' then some (flushWord cur acc).reverse
    else if c = ' ' then lexLine cs [] (flushWord cur acc)
    else if c = ',' then lexLine cs [] (.comma :: flushWord cur acc)
    else if c = '[' then lexLine cs [] (.openBracket :: flushWord cur acc)
    else if c = ']' then lexLine cs [] (.closeBracket :: flushWord cur acc)
    else if isWordChar c then lexLine cs (c :: cur) acc
    else none

/-- The value of a digit in a base of at most 16. -/
def digitValue (base : Nat) (c : Char) : Option Nat :=
  let v :=
    if c.isDigit then c.toNat - '0'.toNat
    else if 'a' ≤ c ∧ c ≤ 'f' then c.toNat - 'a'.toNat + 10
    else if 'A' ≤ c ∧ c ≤ 'F' then c.toNat - 'A'.toNat + 10
    else base
  if v < base then some v else none

/-- The number a sequence of digits writes, from the value `acc` of those before them. -/
def digitsValue (base : Nat) : Nat → List Char → Option Nat
  | acc, [] => some acc
  | acc, c :: cs => (digitValue base c).bind fun v => digitsValue base (acc * base + v) cs

/-- The number a non-empty sequence of digits writes. -/
def parseDigits (base : Nat) (cs : List Char) : Option Nat :=
  if cs.isEmpty then none else digitsValue base 0 cs

/-- The parts of `cs` before and after its first `sep`. -/
def splitAtChar (sep : Char) (cs : List Char) : Option (List Char × List Char) :=
  if cs.contains sep then some (cs.takeWhile (· ≠ sep), (cs.dropWhile (· ≠ sep)).drop 1) else none

/-- An unsigned number: hexadecimal, a fraction, a decimal or an integer. -/
def parseUnsigned (cs : List Char) : Option Rat :=
  match cs with
  | '0' :: 'x' :: hex => (parseDigits 16 hex).map fun n => (n : Rat)
  | _ =>
    match splitAtChar '/' cs with
    | some (a, b) =>
      (parseDigits 10 a).bind fun n => (parseDigits 10 b).bind fun d =>
        if d = 0 then none else some ((n : Rat) / (d : Rat))
    | none =>
      match splitAtChar '.' cs with
      | some (a, b) =>
        (parseDigits 10 a).bind fun n => (parseDigits 10 b).map fun f =>
          (n : Rat) + (f : Rat) / ((10 ^ b.length : Nat) : Rat)
      | none => (parseDigits 10 cs).map fun n => (n : Rat)

/-- A number with an optional sign. -/
def parseNumber : List Char → Option Rat
  | '-' :: cs => (parseUnsigned cs).map fun q => -q
  | cs => parseUnsigned cs

/-- The integer a number is, in the range `lo` to `hi`: R74 says no value outside an operand's type can be written. -/
def intIn (lo hi : Int) (q : Rat) : Option Int :=
  if q.den = 1 ∧ lo ≤ q.num ∧ q.num ≤ hi then some q.num else none

/-- The operands of a line. `inside` holds the bytes of an open bracket, last first; `need` says that an operand or a
byte must come next, as at the start and after a comma; `acc` holds the operands read, last first. -/
def parseOperands : List AsmToken → Option (List Byte) → Bool → List AsmOperand → Option (List AsmOperand)
  | [], none, need, acc => if need && !acc.isEmpty then none else some acc.reverse
  | [], some _, _, _ => none
  | .word cs :: ts, none, need, acc =>
    if need then (parseNumber cs).bind fun q => parseOperands ts none false (.number q :: acc) else none
  | .word cs :: ts, some bs, need, acc =>
    if need then ((parseNumber cs).bind (intIn 0 255)).bind fun v =>
      parseOperands ts (some (BitVec.ofInt 8 v :: bs)) false acc
    else none
  | .comma :: ts, inside, need, acc => if need then none else parseOperands ts inside true acc
  | .openBracket :: ts, none, need, acc => if need then parseOperands ts (some []) true acc else none
  | .openBracket :: _, some _, _, _ => none
  | .closeBracket :: ts, some bs, need, acc =>
    if need && !bs.isEmpty then none else parseOperands ts none false (.bytes bs.reverse :: acc)
  | .closeBracket :: _, none, _, _ => none

/-- A `u8` operand. -/
def asU8 (q : Rat) : Option Byte := (intIn 0 255 q).map (BitVec.ofInt 8)

/-- A `u32` operand. -/
def asU32 (q : Rat) : Option U32 := (intIn 0 (2 ^ 32 - 1) q).map (BitVec.ofInt 32)

/-- An `i32` operand. -/
def asI32 (q : Rat) : Option I32 := (intIn (-2 ^ 31) (2 ^ 31 - 1) q).map (BitVec.ofInt 32)

/-- An `Int` operand. -/
def asInt (q : Rat) : Option Int := if q.den = 1 then some q.num else none

/-- The command a mnemonic and its operands write (R72's operands column, R85's pseudo-commands). -/
def assembleCommand (mnemonic : List Char) (ops : List AsmOperand) : Option Instr :=
  if mnemonic = "CRC8".toList then
    match ops with
    | [.bytes bs] => some (.crc8 bs)
    | _ => none
  else if mnemonic = "ENCODE_READ".toList then
    match ops with
    | [.number a, .number r] => (asU8 a).bind fun a => (asU8 r).map fun r => .encodeRead a r
    | [.number r] => (asU8 r).bind fun r => (Pseudo.encodeReadDefault r).expand
    | _ => none
  else if mnemonic = "ENCODE_WRITE".toList then
    match ops with
    | [.number a, .number r, .number v] =>
      (asU8 a).bind fun a => (asU8 r).bind fun r => (asInt v).map fun v => .encodeWrite a r v
    | [.number r, .number v] =>
      (asU8 r).bind fun r => (asInt v).bind fun v => (Pseudo.encodeWriteDefault r v).expand
    | _ => none
  else if mnemonic = "CHECK_FRAME".toList then
    match ops with
    | [.bytes bs] => some (.checkFrame bs)
    | _ => none
  else if mnemonic = "VALIDATE_READBACK".toList then
    match ops with
    | [.bytes bs] => some (.validateReadback bs)
    | _ => none
  else if mnemonic = "SET_DIVISOR".toList then
    match ops with
    | [.number d] => (asU32 d).map .setDivisor
    | _ => none
  else if mnemonic = "MOVE".toList then
    match ops with
    | [.number s, .number r, .number t] => (asI32 s).bind fun s => (asU32 r).map fun r => .move s r t
    | _ => none
  else if mnemonic = "POLL".toList then
    match ops with
    | [.number t] => some (.poll t)
    | _ => none
  else if mnemonic = "STOP".toList then
    if ops.isEmpty then some .stop else none
  else if mnemonic = "VELOCITY_MODE".toList then
    if ops.isEmpty then some .velocityMode else none
  else if mnemonic = "INITIALIZE".toList then
    if ops.isEmpty then Pseudo.initializeUnit.expand else none
  else if mnemonic = "CHECK_WRITE_ECHO".toList then
    match ops with
    | [.bytes bs] => (Pseudo.checkWriteEcho bs).expand
    | _ => none
  else if mnemonic = "RUN_CONTINUOUS".toList then
    if ops.isEmpty then Pseudo.runContinuous.expand else none
  else none

/-- One line: the command it writes, or none for a blank or comment line; no answer for a line that is neither. -/
def assembleLine (line : List Char) : Option (List Instr) :=
  match lexLine line [] [] with
  | none => none
  | some [] => some []
  | some (.word m :: ts) =>
    (parseOperands ts none true []).bind fun ops => (assembleCommand m ops).map fun i => [i]
  | some _ => none

/-- The lines of a text. -/
def textLines : List Char → List Char → List (List Char)
  | [], cur => [cur.reverse]
  | c :: cs, cur => if c = '\n' then cur.reverse :: textLines cs [] else textLines cs (c :: cur)

/-- The commands a text writes, in order. -/
def assemble (text : List Char) : Option (List Instr) :=
  ((textLines text []).mapM assembleLine).map List.flatten

end Sys2Proof.Machine
end

