-- ==== Sys2Proof/Safety.lean ====
section
/-! DEFINITION. The words claims are made in: the invariants of spec/10_state.md R37 and of the line trace, sequences of
commands (spec/20_memory.md R60), the counting of pulses (spec/41_step_pulse.md R139), and what the host must respect. -/

namespace Sys2Proof.Machine

/-- The registers at every command boundary (R23, R24, R26, R28, R31, R37): a legal fault code, `remaining` at most
`2^31`, `mdiv` 0 or legal, no RPM without a divisor, the delay that RPM and divisor give, STEP low. -/
abbrev State.RegsInv (s : State) : Prop :=
  s.fault.toNat ≤ 5 ∧ s.remaining.toNat ≤ 2 ^ 31 ∧ (s.mdiv = 0 ∨ legalDiv s.mdiv = true) ∧
    (s.mdiv = 0 → s.rpm = 0) ∧ s.delay = moveDelay s.rpm s.mdiv ∧ s.step = false

/-- The levels of (DIR, STEP) after one event; a RESET puts both low (R33, R200). -/
def levelsAfter (levels : Bool × Bool) : LineEvent → Bool × Bool
  | .dir v => (v, levels.2)
  | .step v => (levels.1, v)
  | .reset => (false, false)

/-- The levels of (DIR, STEP) that a trace leaves. -/
def lineLevels (trace : List LineEvent) : Bool × Bool :=
  trace.foldl levelsAfter (false, false)

/-- Every edge of STEP in a trace belongs to a whole pulse: a rising edge and, at once, its falling edge (R131). -/
def wholePulses : List LineEvent → Bool
  | [] => true
  | .step true :: .step false :: rest => wholePulses rest
  | .step _ :: _ => false
  | .dir _ :: rest => wholePulses rest
  | .reset :: rest => wholePulses rest

/-- The trace at every command boundary: whole pulses, and line levels that are the registers `dir` and `step`. -/
abbrev State.TraceInv (s : State) : Prop :=
  wholePulses s.trace = true ∧ lineLevels s.trace = (s.dir, s.step)

/-- The number of pulses of a trace: its rising edges of STEP (R13). -/
def pulseCount (trace : List LineEvent) : Nat :=
  trace.count (.step true)

/-- The events of `n` pulses. -/
def pulses : Nat → List LineEvent
  | 0 => []
  | n + 1 => .step true :: .step false :: pulses n

/-- The host issues these commands one after another (R60). -/
def issue : List Instr → State → Answer
  | [], s => .next s
  | i :: is, s =>
    match exec i s with
    | .next t => issue is t
    | .fault r => .fault r
    | .refused r => .refused r

/-- How many POLLs at these times are due, the first when it comes at or after `due` and each later one when it comes at
or after the time of the due one before it plus `delay` (R139). -/
def dueCount (delay : Rat) : Rat → List Rat → Nat
  | _, [] => 0
  | due, p :: ps => if due ≤ p then dueCount delay (p + delay) ps + 1 else dueCount delay due ps

/-- The times `from_ + delay`, `from_ + 2 * delay`, ..., `n` of them (R139). -/
def onTime (delay : Rat) : Rat → Nat → List Rat
  | _, 0 => []
  | from_, n + 1 => (from_ + delay) :: onTime delay (from_ + delay) n

/-- `k` steps of the machine, stopping where a step stops. -/
def runSteps : Nat → State → Answer
  | 0, s => .next s
  | k + 1, s =>
    match step s with
    | .next t => runSteps k t
    | .fault r => .fault r
    | .refused r => .refused r

/-- An instruction of the FC unit, a frame row among them: the codec family (R2, R110). -/
def isCodec : Instr → Bool
  | .crc8 _ => true
  | .encodeRead _ _ => true
  | .encodeWrite _ _ _ => true
  | .checkFrame _ => true
  | .validateReadback _ => true
  | .setDivisor _ => false
  | .move _ _ _ => false
  | .poll _ => false
  | .stop => false
  | .velocityMode => false
  | .readRequest _ _ _ => true
  | .writeRequest _ _ _ _ => true
  | .reply _ _ _ _ _ => true
  | .readback _ _ _ _ _ _ => true

/-- What the host must respect for a command to raise no fault in `s`: legal operands (R205), and a divisor set before
a MOVE with `rpm` not 0 (R204). -/
def allowedIn (s : State) (i : Instr) : Bool :=
  i.wellFormed &&
    match i with
    | .move _ rpm _ => rpm == 0 || s.mdiv != 0
    | _ => true

end Sys2Proof.Machine
end

