-- ==== Sys2Proof/Certificates/Slice0/Obligations.lean ====
section
/-! DEFINITION. The statements for the provers, from the numbered rules of spec/. -/

open Sys2Proof Sys2Proof.Machine

/-! ### Encodings -/

/-- For every instruction and every parameter value: decoding its encoding gives it back (R71, R72, R75 to R78). -/
def Obligations.DecodeInvertsEncode : Prop :=
  ∀ (cfg : Config) (i : Instr), decode cfg (encode cfg i) = .ok i

/-- A record that decodes to an instruction is that instruction's encoding: no two records mean the same (R71, R82). -/
def Obligations.EncodeInvertsDecode : Prop :=
  ∀ (cfg : Config) (r : Record) (i : Instr), decode cfg r = .ok i → encode cfg i = r

/-- One word of each row of spec/opcode_table.json, written out from the row's bits, decodes to that row's
instruction. -/
def Obligations.TableWordsDecode : Prop :=
  decodeTableWord 8 0b00000001 = some (.crc8 []) ∧
  decodeTableWord 8 0b00000010 = some (.encodeRead 0 0) ∧
  decodeTableWord 8 0b00000011 = some (.encodeWrite 0 0 0) ∧
  decodeTableWord 8 0b00000100 = some (.checkFrame [0]) ∧
  decodeTableWord 8 0b00000101 = some (.validateReadback []) ∧
  decodeTableWord 8 0b00010000 = some (.setDivisor 0) ∧
  decodeTableWord 8 0b00010001 = some (.move 0 0 0) ∧
  decodeTableWord 8 0b00010010 = some (.poll 0) ∧
  decodeTableWord 8 0b00010011 = some .stop ∧
  decodeTableWord 8 0b00010100 = some .velocityMode ∧
  decodeTableWord 32 0b01010101000000100001000010111110 = some (.readRequest 2 0x10 0xBE) ∧
  decodeTableWord 64 0x5503FF1234567862 = some (.writeRequest 3 0x7F 0x12345678 0x62) ∧
  decodeTableWord 64 0x05FF0200000007D4 = some (.reply 0x05 0xFF 0x02 7 0xD4) ∧
  decodeTableWord 96 0x550002EA55000212345678E4 =
    some (.readback 0x550002EA 0x55 0x00 0x02 0x12345678 0xE4) ∧
  decodeTableWord 8 0x00 = none ∧ decodeTableWord 8 0x06 = none ∧ decodeTableWord 8 0x15 = none

/-- A command record decodes exactly when its operands have the types R72 lists for its op byte; one with a legal op
byte and other operands, which R71 says cannot be written down, is refused by name (log entry 8). -/
def Obligations.OperandListsFollowTheTable : Prop :=
  ∀ (cfg : Config) (op : Byte) (operands : List Operand) (kinds : List OperandKind),
    operandKinds op = some kinds →
    (operands.map Operand.kind = kinds → ∃ i, decode cfg (.command op operands) = .ok i) ∧
    (operands.map Operand.kind ≠ kinds →
      ∀ (s : State) (rest : List Input), s.inbox = .record (.command op operands) :: rest →
        step s = .refused (.operandMismatch op))

/-- R85: the pseudo-commands and what each expands to. -/
def Obligations.PseudoCommandsExpand : Prop :=
  Pseudo.initializeUnit.expand = some (.setDivisor 8) ∧
  (∀ reg : Byte, (Pseudo.encodeReadDefault reg).expand = some (.encodeRead 0 reg)) ∧
  (∀ (reg : Byte) (value : Int), (Pseudo.encodeWriteDefault reg value).expand = some (.encodeWrite 0 reg value)) ∧
  (∀ bs : List Byte,
    (bs.length = 8 → (Pseudo.checkWriteEcho bs).expand = some (.checkFrame bs)) ∧
    (bs.length ≠ 8 → (Pseudo.checkWriteEcho bs).expand = none)) ∧
  Pseudo.runContinuous.expand = some .velocityMode

/-- R84's forms (log entry 13), each on one line of text: a bracketed byte sequence, the three ways to write a time, a
comment, a pseudo-command; a value outside its operand's type is not written (R74). -/
def Obligations.AssemblerLinesRead : Prop :=
  assemble "CHECK_FRAME [0x55, 0x00, 0x02, 0xEA]".toList = some [.checkFrame [0x55, 0x00, 0x02, 0xEA]] ∧
  assemble "POLL 1000".toList = some [.poll 1000] ∧
  assemble "POLL 1000.625".toList = some [.poll (8005 / 8)] ∧
  assemble "POLL 8005/8 ; the same".toList = some [.poll (8005 / 8)] ∧
  assemble "MOVE -100, 30, 1000".toList = some [.move (-100) 30 1000] ∧
  assemble "INITIALIZE".toList = some [.setDivisor 8] ∧
  assemble "ENCODE_READ 0x02".toList = some [.encodeRead 0 2] ∧
  assemble "MOVE 2147483648, 1, 0".toList = none

/-! ### Steps, reset and the order of commands -/

/-- The next record, when it decodes to an instruction, is taken from the inbox (log entry 1) and run: a step is `exec`
of it on the state without that record. -/
def Obligations.StepRunsTheDecodedRecord : Prop :=
  ∀ (s : State) (r : Record) (rest : List Input) (i : Instr),
    s.inbox = .record r :: rest → decode s.cfg r = .ok i → step s = exec i { s with inbox := rest }

/-- The opcode table's word, placed as the next record (log entry 6), is what the next step runs, on the state it was
placed in. -/
def Obligations.PlacedWordRuns : Prop :=
  ∀ (s : State) (nbits w : Nat) (i : Instr),
    decode s.cfg (recordOfWord s.cfg nbits w) = .ok i → step (s.withFetchWord nbits w) = exec i s

/-- With nothing sent FCSP is idle and holds its state (R182, R8; the inbox is log entry 1, the idle step log
entry 10). -/
def Obligations.IdleHoldsItsState : Prop :=
  ∀ s : State, s.inbox = [] → step s = .next s

/-- R200: reset writes every field of R22 to 0, appends (RESET), returns no response and leaves the mode Idle; it is the
only step that clears a latched fault. Nothing is said of the counter `draws` (log entry 9). -/
def Obligations.ResetInputClears : Prop :=
  (∀ (s : State) (rest : List Input), s.inbox = .reset :: rest →
    ∃ (t : State) (k : Nat), step s = .next t ∧ t.mode = .idle ∧
      t = { s with fault := 0, remaining := 0, rpm := 0, delay := 0, nextDue := 0, mdiv := 0, devVel := false,
                   dir := false, step := false, trace := s.trace ++ [.reset], inbox := rest, draws := k }) ∧
  (∀ s t : State, s.fault ≠ 0 → step s = .next t → t.fault = 0 → ∃ rest, s.inbox = .reset :: rest)

/-- R39 and R201: the values after power-on. -/
def Obligations.PowerOnValues : Prop :=
  State.reset.fault = 0 ∧ State.reset.remaining = 0 ∧ State.reset.rpm = 0 ∧ State.reset.delay = 0 ∧
  State.reset.nextDue = 0 ∧ State.reset.mdiv = 0 ∧ State.reset.devVel = false ∧ State.reset.dir = false ∧
  State.reset.step = false ∧ State.reset.trace = [.reset]

/-- R60: a sequence of commands waiting in the inbox (log entry 1) takes effect one at a time in the order issued,
whatever waits behind it. -/
def Obligations.CommandsTakeEffectInOrder : Prop :=
  ∀ (is : List Instr) (s t : State) (rest : List Input),
    issue is { s with inbox := rest } = .next t →
    runSteps is.length { s with inbox := is.map (fun i => .record (encode s.cfg i)) ++ rest } = .next t

/-- A step stops only where the spec has no move: a fault exactly for a reset during a command (93 row 18), a refusal
exactly for a record that is neither a command with R72's operands, nor an illegal op, nor a frame (log entries 7
and 8). -/
def Obligations.StepStopsOnlyOutsideTheSpec : Prop :=
  ∀ s : State,
    ((∃ f, step s = .fault f) ↔ ∃ r rest, s.inbox = .resetDuring r :: rest) ∧
    ((∃ f, step s = .refused f) ↔
      ∃ r rest e, s.inbox = .record r :: rest ∧ decode s.cfg r = .error e ∧ ∀ op, e ≠ .illegalOp op)

/-- Every instruction completes in every state: none ends in a fault or a refusal of the machine (R57, R170; for the
frame rows log entry 3). -/
def Obligations.EveryInstructionAnswersNext : Prop :=
  ∀ (i : Instr) (s : State), ∃ t, exec i s = .next t

/-- The parameters are fixed for the machine: no step writes them (R9). -/
def Obligations.ParametersNeverWritten : Prop :=
  ∀ s t : State, step s = .next t → t.cfg = s.cfg

/-! ### Faults and responses -/

/-- R173: while a fault is latched every command is refused with the latched code and no other effect, an illegal op
among them, and the frame rows too (log entry 3); in a healthy state an op byte outside R72 raises ILLEGAL_COMMAND. -/
def Obligations.LatchedFaultRefusesEveryCommand : Prop :=
  (∀ (i : Instr) (s : State), s.fault ≠ 0 →
    exec i s = .next { s with responses := s.responses ++ [⟨.faulted, .code s.fault⟩] }) ∧
  (∀ (s : State) (rest : List Input) (op : Byte) (operands : List Operand),
    s.inbox = .record (.command op operands) :: rest → operandKinds op = none →
    (s.fault ≠ 0 →
      step s = .next { s with inbox := rest, responses := s.responses ++ [⟨.faulted, .code s.fault⟩] }) ∧
    (s.fault = 0 →
      step s = .next { s with inbox := rest, fault := 0x01, responses := s.responses ++ [⟨.faulted, .code 0x01⟩] }))

/-- R73: every op byte outside the table (0x00, 0x06 to 0x0F, 0x15 to 0xFF), with any operands, raises
ILLEGAL_COMMAND and has no other effect. -/
def Obligations.IllegalOpRaisesFault : Prop :=
  ∀ (s : State) (rest : List Input) (op : Byte) (operands : List Operand),
    s.inbox = .record (.command op operands) :: rest → s.fault = 0 →
    (op.toNat = 0 ∨ (0x06 ≤ op.toNat ∧ op.toNat ≤ 0x0F) ∨ 0x15 ≤ op.toNat) →
    step s = .next { s with inbox := rest, fault := 0x01, responses := s.responses ++ [⟨.faulted, .code 0x01⟩] }

/-- R172: after a command that raises a fault the state is the state before it, but for the latched code and the
response (FAULTED, code): for every instruction (the frame rows too: log entry 3), and for every record a step takes,
an illegal op among them. -/
def Obligations.FaultEntryIsPrecise : Prop :=
  (∀ (i : Instr) (s t : State), s.fault = 0 → exec i s = .next t → t.fault ≠ 0 →
    t = { s with fault := t.fault, responses := s.responses ++ [⟨.faulted, .code t.fault⟩] }) ∧
  (∀ (r : Record) (rest : List Input) (s t : State), s.fault = 0 → s.inbox = .record r :: rest → step s = .next t →
    t.fault ≠ 0 →
    t = { s with inbox := rest, fault := t.fault, responses := s.responses ++ [⟨.faulted, .code t.fault⟩] })

/-- R171: which command raises which code, and for what cause; no other command raises a fault. -/
def Obligations.FaultCausesAreTheTables : Prop :=
  (∀ (i : Instr) (s t : State), s.fault = 0 → exec i s = .next t →
    t.fault =
      match i with
      | .encodeRead addr reg => if 4 ≤ addr.toNat then 0x02 else if 0x80 ≤ reg.toNat then 0x03 else 0x00
      | .encodeWrite addr reg _ => if 4 ≤ addr.toNat then 0x02 else if 0x80 ≤ reg.toNat then 0x03 else 0x00
      | .checkFrame bs => if bs = [] then 0x04 else 0x00
      | .move _ rpm _ => if rpm ≠ 0 ∧ s.mdiv = 0 then 0x05 else 0x00
      | _ => 0x00) ∧
  (∀ (s t : State) (rest : List Input) (op : Byte) (operands : List Operand), s.fault = 0 →
    s.inbox = .record (.command op operands) :: rest → step s = .next t →
    (t.fault = 0x01 ↔ operandKinds op = none))

/-- R174, R23: only a reset clears a latched fault; every other step, a frame row's too (log entry 3), keeps the first
code. -/
def Obligations.FaultStaysLatchedUntilReset : Prop :=
  ∀ s t : State, s.fault ≠ 0 → step s = .next t →
    ((∃ rest, s.inbox = .reset :: rest) → t.fault = 0) ∧ ((¬∃ rest, s.inbox = .reset :: rest) → t.fault = s.fault)

/-- R205, R204: a host that passes legal operands, and sets a divisor before it moves with `rpm` not 0, latches no
fault. -/
def Obligations.AllowedCommandRaisesNoFault : Prop :=
  ∀ (i : Instr) (s : State), s.fault = 0 → allowedIn s i = true → ∃ t, exec i s = .next t ∧ t.fault = 0

/-- R111: an FC instruction with legal operands raises no fault, and returns a status other than OK only as the verdict
on received bytes. That the frame rows behave so is log entry 3. -/
def Obligations.LegalCodecCommandCannotFail : Prop :=
  ∀ (i : Instr) (s : State), s.fault = 0 → isCodec i = true → i.wellFormed = true →
    ∃ t r, exec i s = .next t ∧ t.fault = 0 ∧ t.responses = s.responses ++ [r] ∧
      match i with
      | .crc8 _ => r.status = .ok
      | .encodeRead _ _ => r.status = .ok
      | .encodeWrite _ _ _ => r.status = .ok
      | .readRequest _ _ _ => r.status = .ok
      | .writeRequest _ _ _ _ => r.status = .ok
      | .checkFrame _ => r.status = .ok ∨ r.status = .checksumMismatch
      | .reply _ _ _ _ _ => r.status = .ok ∨ r.status = .checksumMismatch
      | _ => r.status = .ok ∨ r.status = .shortReply ∨ r.status = .checksumMismatch

/-- R34, R175: every command returns exactly one response; it is FAULTED exactly when a fault is latched after it, and
its result is then the code; and each other status comes only from the commands R175 names. -/
def Obligations.OneResponsePerCommand : Prop :=
  ∀ (i : Instr) (s t : State), exec i s = .next t →
    ∃ r : Response, t.responses = s.responses ++ [r] ∧
      (r.status = .faulted ↔ t.fault ≠ 0) ∧ (t.fault ≠ 0 → r.result = .code t.fault) ∧
      (r.status = .invalidConfig → ∃ d, i = .setDivisor d) ∧
      (r.status = .modeBusy → ∃ n rpm now, i = .move n rpm now) ∧
      (r.status = .shortReply →
        (∃ bs, i = .validateReadback bs) ∨ ∃ e y a g d c, i = .readback e y a g d c) ∧
      (r.status = .checksumMismatch →
        (∃ bs, i = .checkFrame bs) ∨ (∃ bs, i = .validateReadback bs) ∨
        (∃ y a g d c, i = .reply y a g d c) ∨ ∃ e y a g d c, i = .readback e y a g d c)

/-- R175, R171: the numeric codes. -/
def Obligations.StatusAndFaultCodes : Prop :=
  Status.ok.code = 0x00 ∧ Status.invalidConfig.code = 0x01 ∧ Status.modeBusy.code = 0x02 ∧
  Status.shortReply.code = 0x03 ∧ Status.checksumMismatch.code = 0x04 ∧ Status.faulted.code = 0xFF ∧
  FaultCode.illegalCommand.code = 0x01 ∧ FaultCode.badDriverAddr.code = 0x02 ∧ FaultCode.badRegister.code = 0x03 ∧
  FaultCode.badLength.code = 0x04 ∧ FaultCode.notInitialized.code = 0x05

/-- R33, R34: no command's behaviour depends on the trace or on earlier responses. Two states that differ only in them
give the same new events and the same response. -/
def Obligations.OutputsAreNotRead : Prop :=
  ∀ (i : Instr) (s t : State) (trace : List LineEvent) (responses : List Response), exec i s = .next t →
    ∃ (es : List LineEvent) (r : Response),
      t.trace = s.trace ++ es ∧ t.responses = s.responses ++ [r] ∧
      exec i { s with trace := trace, responses := responses } =
        .next { t with trace := trace ++ es, responses := responses ++ [r] }

/-! ### The frame codec -/

/-- R101: a byte more enters the CRC bit by bit, by shift and feedback with the polynomial 0x07, in the order the
parameter gives; the CRC of no bytes is 0. The arithmetic is written on numbers. -/
def Obligations.CrcIsBitSerial : Prop :=
  ∀ (order : BitOrder) (bs : List Byte) (b : Byte),
    crc8 order [] = 0 ∧
    crc8 order (bs ++ [b]) =
      (match order with
        | .msbFirst => [7, 6, 5, 4, 3, 2, 1, 0]
        | .lsbFirst => [0, 1, 2, 3, 4, 5, 6, 7]).foldl
        (fun (c : Byte) (i : Nat) =>
          let shifted := 2 * c.toNat % 256
          if c.toNat / 128 % 2 = b.toNat / 2 ^ i % 2 then BitVec.ofNat 8 shifted
          else BitVec.ofNat 8 (shifted ^^^ 7))
        (crc8 order bs) ∧
    crc8 .msbFirst [0x55, 0x00, 0x00] = 0xE4

/-- R102 (b): MSB first, a sequence followed by its CRC has the CRC 0; LSB first this does not hold in general. -/
def Obligations.CrcResidueIsZero : Prop :=
  (∀ bs : List Byte, crc8 .msbFirst (bs ++ [crc8 .msbFirst bs]) = 0) ∧
  ∃ bs : List Byte, crc8 .lsbFirst (bs ++ [crc8 .lsbFirst bs]) ≠ 0

/-- R102 (c): MSB first, the CRC by the table of the 256 one-byte CRCs, with R102's three entries. LSB first R102 says the
same of the LSB-first table, but R101's loop contradicts it: no table `T` at all gives the CRC by `T[c ^ b]`, and the
LSB-first table does when the CRC is bit-reversed before it meets the byte. That the loop is followed there is the
model's choice (log entry 14). -/
def Obligations.CrcTableForm : Prop :=
  (∀ bs : List Byte, crc8 .msbFirst bs = bs.foldl (fun c b => crc8 .msbFirst [c ^^^ b]) 0) ∧
  (crc8 .msbFirst [0x01] = 0x07 ∧ crc8 .msbFirst [0x80] = 0x89 ∧ crc8 .msbFirst [0xFF] = 0xF3) ∧
  (∀ bs : List Byte, crc8 .lsbFirst bs = bs.foldl (fun c b => crc8 .lsbFirst [c.reverse ^^^ b]) 0) ∧
  ∀ T : Byte → Byte, ∃ bs : List Byte, crc8 .lsbFirst bs ≠ bs.foldl (fun c b => T (c ^^^ b)) 0

/-- R102 (d): in either bit order the CRC is linear over sequences of equal length. -/
def Obligations.CrcIsLinear : Prop :=
  ∀ (order : BitOrder) (a b : List Byte), a.length = b.length →
    crc8 order (List.zipWith (· ^^^ ·) a b) = crc8 order a ^^^ crc8 order b

/-- R102 (e): in either bit order, CHECK_FRAME refuses an 8-byte frame with any one of its 64 bits changed. -/
def Obligations.SingleBitErrorsAreDetected : Prop :=
  ∀ (s : State) (body : List Byte) (k i : Nat), s.fault = 0 → body.length = 7 → k < 8 → i < 8 →
    let f := body ++ [crc8 s.cfg.crcOrder body]
    exec (.checkFrame (f.set k (byteAt f k ^^^ BitVec.ofNat 8 (2 ^ i)))) s =
      .next { s with responses := s.responses ++ [⟨.checksumMismatch, .bit false⟩] }

/-- R103: CRC8 always responds (OK, crc8(bs)) and writes nothing; the empty and the all-zero sequences give 0. -/
def Obligations.Crc8Responds : Prop :=
  (∀ (bs : List Byte) (s : State), s.fault = 0 →
    exec (.crc8 bs) s =
      .next { s with responses := s.responses ++ [⟨.ok, .crc (crc8 s.cfg.crcOrder bs)⟩] }) ∧
  (∀ (order : BitOrder) (n : Nat), crc8 order (List.replicate n 0) = 0) ∧
  crc8 .msbFirst [0x31, 0x32, 0x33, 0x34, 0x35, 0x36, 0x37, 0x38, 0x39] = 0xF4

/-- R104: the fault checks in their order, then the 4-byte frame; nothing else changes. -/
def Obligations.EncodeReadBuildsItsFrame : Prop :=
  ∀ (addr reg : Byte) (s : State), s.fault = 0 →
    (4 ≤ addr.toNat → exec (.encodeRead addr reg) s =
      .next { s with fault := 0x02, responses := s.responses ++ [⟨.faulted, .code 0x02⟩] }) ∧
    (addr.toNat < 4 → 0x80 ≤ reg.toNat → exec (.encodeRead addr reg) s =
      .next { s with fault := 0x03, responses := s.responses ++ [⟨.faulted, .code 0x03⟩] }) ∧
    (addr.toNat < 4 → reg.toNat < 0x80 → exec (.encodeRead addr reg) s =
      .next { s with responses := s.responses ++
        [⟨.ok, .frame [s.cfg.syncByte, addr, reg, crc8 s.cfg.crcOrder [s.cfg.syncByte, addr, reg]]⟩] })

/-- R105: the fault checks in their order, then the 8-byte frame: the register byte with bit 7 set, the value mod 2^32
big-endian, the checksum over the first 7 bytes; nothing else changes. -/
def Obligations.EncodeWriteBuildsItsFrame : Prop :=
  ∀ (addr reg : Byte) (value : Int) (s : State), s.fault = 0 →
    (4 ≤ addr.toNat → exec (.encodeWrite addr reg value) s =
      .next { s with fault := 0x02, responses := s.responses ++ [⟨.faulted, .code 0x02⟩] }) ∧
    (addr.toNat < 4 → 0x80 ≤ reg.toNat → exec (.encodeWrite addr reg value) s =
      .next { s with fault := 0x03, responses := s.responses ++ [⟨.faulted, .code 0x03⟩] }) ∧
    (addr.toNat < 4 → reg.toNat < 0x80 →
      let u : Nat := (value % 2 ^ 32).toNat
      let body : List Byte :=
        [s.cfg.syncByte, addr, BitVec.ofNat 8 (reg.toNat + 0x80), BitVec.ofNat 8 (u / 2 ^ 24),
          BitVec.ofNat 8 (u / 2 ^ 16), BitVec.ofNat 8 (u / 2 ^ 8), BitVec.ofNat 8 u]
      exec (.encodeWrite addr reg value) s =
        .next { s with responses := s.responses ++ [⟨.ok, .frame (body ++ [crc8 s.cfg.crcOrder body])⟩] })

/-- R109: every frame the encode commands return passes CHECK_FRAME, and a write frame has bit 7 of its register byte
set and holds the value mod 2^32, read as a signed number. -/
def Obligations.EncodedFramesPassTheirCheck : Prop :=
  ∀ (addr reg : Byte) (value : Int) (s : State), s.fault = 0 → addr.toNat < 4 → reg.toNat < 0x80 →
    (∃ f t, exec (.encodeRead addr reg) s = .next t ∧ t.responses = s.responses ++ [⟨.ok, .frame f⟩] ∧
      f.getLast? = some (crc8 s.cfg.crcOrder f.dropLast) ∧
      exec (.checkFrame f) t = .next { t with responses := t.responses ++ [⟨.ok, .bit true⟩] }) ∧
    (∃ f t, exec (.encodeWrite addr reg value) s = .next t ∧ t.responses = s.responses ++ [⟨.ok, .frame f⟩] ∧
      f.getLast? = some (crc8 s.cfg.crcOrder f.dropLast) ∧
      exec (.checkFrame f) t = .next { t with responses := t.responses ++ [⟨.ok, .bit true⟩] } ∧
      (byteAt f 2).getLsbD 7 = true ∧
      let u : Nat := (byteAt f 3).toNat * 2 ^ 24 + (byteAt f 4).toNat * 2 ^ 16 + (byteAt f 5).toNat * 2 ^ 8 +
        (byteAt f 6).toNat
      (if u < 2 ^ 31 then (u : Int) else (u : Int) - 2 ^ 32) =
        if value % 2 ^ 32 < 2 ^ 31 then value % 2 ^ 32 else value % 2 ^ 32 - 2 ^ 32)

/-- R106: no bytes raise BAD_LENGTH; otherwise the last byte is compared with the CRC of those before it. -/
def Obligations.CheckFrameComparesTheTrailingByte : Prop :=
  (∀ s : State, s.fault = 0 → exec (.checkFrame []) s =
    .next { s with fault := 0x04, responses := s.responses ++ [⟨.faulted, .code 0x04⟩] }) ∧
  (∀ (body : List Byte) (c : Byte) (s : State), s.fault = 0 → exec (.checkFrame (body ++ [c])) s =
    .next { s with responses := s.responses ++
      [if c = crc8 s.cfg.crcOrder body then ⟨.ok, .bit true⟩ else ⟨.checksumMismatch, .bit false⟩] })

/-- R107: the verdict on a read-back: its length, then all 12 bytes zero, then the checksum over offsets 4 to 10; an
accepted one gives the big-endian signed datum of offsets 7 to 10. Nothing is written. -/
def Obligations.ReadbackVerdict : Prop :=
  (∀ (bs : List Byte) (s : State), s.fault = 0 → bs.length ≠ 12 →
    exec (.validateReadback bs) s = .next { s with responses := s.responses ++ [⟨.shortReply, .none⟩] }) ∧
  (∀ (e0 e1 e2 e3 y a g d3 d2 d1 d0 c : Byte) (s : State), s.fault = 0 →
    let bs := [e0, e1, e2, e3, y, a, g, d3, d2, d1, d0, c]
    let u : Nat := d3.toNat * 2 ^ 24 + d2.toNat * 2 ^ 16 + d1.toNat * 2 ^ 8 + d0.toNat
    exec (.validateReadback bs) s =
      .next { s with responses := s.responses ++
        [if bs = List.replicate 12 0 then ⟨.shortReply, .none⟩
          else if c ≠ crc8 s.cfg.crcOrder [y, a, g, d3, d2, d1, d0] then ⟨.checksumMismatch, .none⟩
          else ⟨.ok, .datum (if u < 2 ^ 31 then (u : Int) else (u : Int) - 2 ^ 32)⟩] })

/-- R110: an FC instruction writes nothing but `fault` and its response, and it does not read the SP state: from any
other state with the same fault and parameters it gives the same fault and response. That the frame rows behave so is
log entry 3. -/
def Obligations.CodecNeitherReadsNorWritesMotion : Prop :=
  ∀ (i : Instr) (s t s' : State), isCodec i = true → exec i s = .next t → s'.fault = s.fault → s'.cfg = s.cfg →
    ∃ r : Response,
      t = { s with fault := t.fault, responses := s.responses ++ [r] } ∧
      exec i s' = .next { s' with fault := t.fault, responses := s'.responses ++ [r] }

/-- R58: an FC instruction, a frame row among them (log entry 3), issued twice returns the same response twice and
leaves the same state. -/
def Obligations.CodecIsIdempotent : Prop :=
  ∀ (i : Instr) (s t : State), isCodec i = true → exec i s = .next t →
    ∃ r : Response, t.responses = s.responses ++ [r] ∧
      exec i t = .next { t with responses := t.responses ++ [r] }

/-! ### The frame rows (log entry 3: running a frame row is the model's choice; its effect is its `semantics_rule`'s) -/

/-- READ_REQUEST (log entry 3), by R104: FCSP builds the frame with that address and register. Whatever checksum byte
the row holds, the response is the row's own bytes exactly when that byte is the CRC of the three before it. -/
def Obligations.ReadRequestRowBuildsItsFrame : Prop :=
  ∀ (addr : BitVec 2) (reg : BitVec 7) (c : Byte) (s : State), s.fault = 0 →
    let body : List Byte := [s.cfg.syncByte, BitVec.ofNat 8 addr.toNat, BitVec.ofNat 8 reg.toNat]
    let f := body ++ [crc8 s.cfg.crcOrder body]
    exec (.readRequest addr reg c) s = .next { s with responses := s.responses ++ [⟨.ok, .frame f⟩] } ∧
    (encode s.cfg (.readRequest addr reg c) = .request f ↔ c = crc8 s.cfg.crcOrder body)

/-- WRITE_REQUEST (log entry 3), by R105: FCSP builds the frame with that address, register and value. Whatever checksum
byte the row holds, the response is the row's own bytes exactly when that byte is the CRC of the seven before it. -/
def Obligations.WriteRequestRowBuildsItsFrame : Prop :=
  ∀ (addr : BitVec 2) (reg : BitVec 7) (value : U32) (c : Byte) (s : State), s.fault = 0 →
    let body : List Byte :=
      [s.cfg.syncByte, BitVec.ofNat 8 addr.toNat, BitVec.ofNat 8 (reg.toNat + 0x80),
        BitVec.ofNat 8 (value.toNat / 2 ^ 24), BitVec.ofNat 8 (value.toNat / 2 ^ 16),
        BitVec.ofNat 8 (value.toNat / 2 ^ 8), BitVec.ofNat 8 value.toNat]
    let f := body ++ [crc8 s.cfg.crcOrder body]
    exec (.writeRequest addr reg value c) s = .next { s with responses := s.responses ++ [⟨.ok, .frame f⟩] } ∧
    (encode s.cfg (.writeRequest addr reg value c) = .request f ↔ c = crc8 s.cfg.crcOrder body)

/-- REPLY (log entry 3), by R77 and R107: the checksum over the reply's own first 7 bytes decides, and the datum is the
signed data field; sync, address and register are not checked. -/
def Obligations.ReplyRowChecksAndExtracts : Prop :=
  ∀ (y a g : Byte) (data : U32) (c : Byte) (s : State), s.fault = 0 →
    let body : List Byte :=
      [y, a, g, BitVec.ofNat 8 (data.toNat / 2 ^ 24), BitVec.ofNat 8 (data.toNat / 2 ^ 16),
        BitVec.ofNat 8 (data.toNat / 2 ^ 8), BitVec.ofNat 8 data.toNat]
    exec (.reply y a g data c) s =
      .next { s with responses := s.responses ++
        [if c = crc8 s.cfg.crcOrder body then
            ⟨.ok, .datum (if data.toNat < 2 ^ 31 then (data.toNat : Int) else (data.toNat : Int) - 2 ^ 32)⟩
          else ⟨.checksumMismatch, .none⟩] }

/-- READBACK (log entry 3), by R78 and R107: all 12 bytes zero is SHORT_REPLY, else the checksum over offsets 4 to 10
decides, else the datum is the signed data field. It is VALIDATE_READBACK of the row's bytes, and behind an echo that is
not all zero it gives what the REPLY row gives of its last 8 bytes. -/
def Obligations.ReadbackRowIsJudged : Prop :=
  ∀ (e : U32) (y a g : Byte) (data : U32) (c : Byte) (s : State), s.fault = 0 →
    let body : List Byte :=
      [y, a, g, BitVec.ofNat 8 (data.toNat / 2 ^ 24), BitVec.ofNat 8 (data.toNat / 2 ^ 16),
        BitVec.ofNat 8 (data.toNat / 2 ^ 8), BitVec.ofNat 8 data.toNat]
    exec (.readback e y a g data c) s =
      .next { s with responses := s.responses ++
        [if e = 0 ∧ y = 0 ∧ a = 0 ∧ g = 0 ∧ data = 0 ∧ c = 0 then ⟨.shortReply, .none⟩
          else if c ≠ crc8 s.cfg.crcOrder body then ⟨.checksumMismatch, .none⟩
          else ⟨.ok, .datum (if data.toNat < 2 ^ 31 then (data.toNat : Int) else (data.toNat : Int) - 2 ^ 32)⟩] } ∧
    (∀ bs, encode s.cfg (.readback e y a g data c) = .received bs →
      exec (.readback e y a g data c) s = exec (.validateReadback bs) s) ∧
    (e ≠ 0 → exec (.readback e y a g data c) s = exec (.reply y a g data c) s)

/-! ### The step-pulse unit -/

/-- R130: DELAY by the source's formula is 300 / (rpm * mdiv), exactly; at 60 RPM and divisor 8 it is 0.625 ms. -/
def Obligations.DelayIsExact : Prop :=
  (∀ (rpm : U32) (mdiv : Nat), rpm ≠ 0 → mdiv ≠ 0 →
    delayMs rpm mdiv = 1000 / ((rpm.toNat : Rat) * 200 * mdiv / 60) ∧
    delayMs rpm mdiv = 300 / ((rpm.toNat : Rat) * mdiv)) ∧
  delayMs 60 8 = 5 / 8

/-- R132, R133, R134: SET_DIVISOR of a power of two up to 256 stores it, recomputes the delay when `rpm` is not 0, and
reports 8 - log2(d); of any other value it responds INVALID_CONFIG. Nothing else changes. -/
def Obligations.SetDivisorCommand : Prop :=
  ∀ s : State, s.fault = 0 →
    (∀ k : Nat, k ≤ 8 → exec (.setDivisor (BitVec.ofNat 32 (2 ^ k))) s =
      .next { s with
        mdiv := 2 ^ k
        delay := if s.rpm = 0 then s.delay else 300 / ((s.rpm.toNat : Rat) * 2 ^ k)
        responses := s.responses ++ [⟨.ok, .mres (BitVec.ofNat 4 (8 - k))⟩] }) ∧
    (∀ d : U32, (∀ k : Nat, k ≤ 8 → d.toNat ≠ 2 ^ k) → exec (.setDivisor d) s =
      .next { s with responses := s.responses ++ [⟨.invalidConfig, .none⟩] })

/-- R135: MOVE. NOT_INITIALIZED first, then MODE_BUSY; else the direction (any level `dz` for no steps), the count, the
delay, one pulse for a move of at least one step, and the next due time. Nothing is said of the counter `draws` (log
entry 4). -/
def Obligations.MoveCommand : Prop :=
  ∀ (n : I32) (rpm : U32) (now : Rat) (s : State), s.fault = 0 →
    (rpm ≠ 0 → s.mdiv = 0 → exec (.move n rpm now) s =
      .next { s with fault := 0x05, responses := s.responses ++ [⟨.faulted, .code 0x05⟩] }) ∧
    ((rpm = 0 ∨ s.mdiv ≠ 0) → s.devVel = true → exec (.move n rpm now) s =
      .next { s with responses := s.responses ++ [⟨.modeBusy, .none⟩] }) ∧
    ((rpm = 0 ∨ s.mdiv ≠ 0) → s.devVel = false →
      ∃ (dz : Bool) (k : Nat),
        let dv := if 0 < n.toInt then true else if n.toInt < 0 then false else dz
        let delay := if rpm = 0 then 0 else 300 / ((rpm.toNat : Rat) * s.mdiv)
        exec (.move n rpm now) s =
          .next { s with
            dir := dv
            remaining := BitVec.ofNat 32 n.toInt.natAbs
            rpm := rpm
            delay := delay
            nextDue := if rpm = 0 then 0 else now + delay
            step := if n = 0 then s.step else false
            trace := s.trace ++ (if n = 0 then [.dir dv] else [.dir dv, .step true, .step false])
            draws := k
            responses := s.responses ++ [⟨.ok, .none⟩] })

/-- R136: POLL does nothing in DevVel, with no step remaining, with delay 0, or before its time; a due POLL counts a
step off, pulses unless it was the last, and reschedules from `now`. It always responds OK. -/
def Obligations.PollCommand : Prop :=
  ∀ (now : Rat) (s : State), s.fault = 0 →
    ((s.devVel = true ∨ s.remaining = 0 ∨ s.delay = 0 ∨ now < s.nextDue) →
      exec (.poll now) s = .next { s with responses := s.responses ++ [⟨.ok, .none⟩] }) ∧
    (s.devVel = false → s.remaining ≠ 0 → s.delay ≠ 0 → s.nextDue ≤ now →
      exec (.poll now) s =
        .next { s with
          remaining := BitVec.ofNat 32 (s.remaining.toNat - 1)
          nextDue := now + s.delay
          step := if s.remaining = 1 then s.step else false
          trace := s.trace ++ (if s.remaining = 1 then [] else [.step true, .step false])
          responses := s.responses ++ [⟨.ok, .none⟩] })

/-- R137: STOP clears `remaining` and `dev_vel` and nothing else, and a POLL after it does nothing; STOP is the only
instruction that leaves DevVel. -/
def Obligations.StopCommand : Prop :=
  (∀ s : State, s.fault = 0 →
    ∃ t, exec .stop s = .next t ∧
      t = { s with remaining := 0, devVel := false, responses := s.responses ++ [⟨.ok, .none⟩] } ∧
      ∀ now : Rat, exec (.poll now) t = .next { t with responses := t.responses ++ [⟨.ok, .none⟩] }) ∧
  ∀ (i : Instr) (s t : State), s.devVel = true → exec i s = .next t → t.devVel = false → i = .stop

/-- R138: VELOCITY_MODE sets `dev_vel` and nothing else; then POLL does nothing, and a MOVE that raises no fault returns
MODE_BUSY. -/
def Obligations.VelocityModeCommand : Prop :=
  ∀ s : State, s.fault = 0 →
    ∃ t, exec .velocityMode s = .next t ∧
      t = { s with devVel := true, responses := s.responses ++ [⟨.ok, .none⟩] } ∧
      (∀ now : Rat, exec (.poll now) t = .next { t with responses := t.responses ++ [⟨.ok, .none⟩] }) ∧
      ∀ (n : I32) (rpm : U32) (now : Rat), (rpm = 0 ∨ s.mdiv ≠ 0) →
        exec (.move n rpm now) t = .next { t with responses := t.responses ++ [⟨.modeBusy, .none⟩] }

/-- R59: STOP, VELOCITY_MODE and SET_DIVISOR are idempotent: issued again they change nothing but the responses. -/
def Obligations.StopVelocityAndDivisorAreIdempotent : Prop :=
  ∀ (i : Instr) (s t : State), (i = .stop ∨ i = .velocityMode ∨ ∃ d, i = .setDivisor d) → exec i s = .next t →
    ∃ r : Response, t.responses = s.responses ++ [r] ∧ exec i t = .next { t with responses := t.responses ++ [r] }

/-- R139: after a MOVE with `steps` and `rpm` not 0 the move emits one pulse, each of its first `|steps| - 1` due POLLs
one more, the `|steps|`-th none, and no later POLL any; so with enough POLLs exactly `|steps|` pulses, all behind the
one DIR level. POLLs at `t0 + k * delay` are all due. -/
def Obligations.MoveEmitsItsPulses : Prop :=
  ∀ (s : State) (n : I32) (rpm : U32) (t0 : Rat), s.fault = 0 → s.devVel = false → s.mdiv ≠ 0 → n ≠ 0 → rpm ≠ 0 →
    let delay := 300 / ((rpm.toNat : Rat) * s.mdiv)
    let count := n.toInt.natAbs
    (∀ ps : List Rat,
      let due := dueCount delay (t0 + delay) ps
      ∃ t, issue (.move n rpm t0 :: ps.map .poll) s = .next t ∧
        t.trace = s.trace ++ .dir (decide (0 < n.toInt)) :: pulses (1 + min due (count - 1)) ∧
        t.remaining.toNat = count - min due count) ∧
    (∀ m : Nat, dueCount delay (t0 + delay) (onTime delay t0 m) = m) ∧
    ∃ t, issue (.move n rpm t0 :: (onTime delay t0 count).map .poll) s = .next t ∧
      pulseCount t.trace = pulseCount s.trace + count ∧ t.remaining = 0

/-- R140: a MOVE with `rpm = 0` and steps emits one pulse and no later POLL another, `remaining` and the mode Moving
staying; a MOVE of no steps emits none and leaves `remaining` 0 and the mode Idle. -/
def Obligations.OneShotAndEmptyMoves : Prop :=
  ∀ (s : State) (t0 : Rat), s.fault = 0 → s.devVel = false →
    (∀ (n : I32) (ps : List Rat), n ≠ 0 →
      ∃ t, issue (.move n 0 t0 :: ps.map .poll) s = .next t ∧
        pulseCount t.trace = pulseCount s.trace + 1 ∧ t.remaining.toNat = n.toInt.natAbs ∧ t.mode = .moving) ∧
    (∀ rpm : U32, (rpm = 0 ∨ s.mdiv ≠ 0) →
      ∃ t, exec (.move 0 rpm t0) s = .next t ∧
        pulseCount t.trace = pulseCount s.trace ∧ t.remaining = 0 ∧ t.mode = .idle)

/-- R143, R32: the mode after each instruction in a healthy state, and after reset; nothing else changes it (a frame row
neither: log entry 3). -/
def Obligations.ModeTransitions : Prop :=
  (∀ (i : Instr) (s t : State), s.fault = 0 → exec i s = .next t →
    t.mode =
      match i with
      | .move n rpm _ =>
        if (rpm ≠ 0 ∧ s.mdiv = 0) ∨ s.mode = .devVel then s.mode else if n = 0 then .idle else .moving
      | .poll now =>
        if s.mode = .moving ∧ s.remaining = 1 ∧ s.delay ≠ 0 ∧ s.nextDue ≤ now then .idle else s.mode
      | .stop => .idle
      | .velocityMode => .devVel
      | _ => s.mode) ∧
  (∀ (s t : State) (rest : List Input), s.inbox = .reset :: rest → step s = .next t → t.mode = .idle)

/-- R144: DIR changes only in MOVE and at reset. Within MOVE it is driven before the pulse; no other instruction adds a
DIR event (a frame row neither: log entry 3); so every pulse of a move comes with the DIR level that move set. -/
def Obligations.DirChangesOnlyInMoveAndReset : Prop :=
  (∀ (i : Instr) (s t : State), exec i s = .next t →
    ∃ es, t.trace = s.trace ++ es ∧
      match i with
      | .move _ _ _ => (es = [] ∧ t.dir = s.dir) ∨ ∃ k, k ≤ 1 ∧ es = .dir t.dir :: pulses k
      | .poll _ => t.dir = s.dir ∧ ∃ k, k ≤ 1 ∧ es = pulses k
      | _ => t.dir = s.dir ∧ es = []) ∧
  (∀ (s t : State) (rest : List Input), s.inbox = .reset :: rest → step s = .next t → t.dir = false)

/-- R37 (a), R24: `remaining` grows only by MOVE, and a MOVE that is carried out leaves at most 2^31. -/
def Obligations.RemainingGrowsOnlyByMove : Prop :=
  ∀ (i : Instr) (s t : State), exec i s = .next t →
    t.remaining.toNat ≤ s.remaining.toNat ∨ ∃ n rpm now, i = .move n rpm now ∧ t.remaining.toNat ≤ 2 ^ 31

/-- R136, R206: no command emits more than one pulse, so a late POLL does not catch up. -/
def Obligations.AtMostOnePulsePerCommand : Prop :=
  ∀ (i : Instr) (s t : State), exec i s = .next t → pulseCount t.trace ≤ pulseCount s.trace + 1

/-! ### Invariants -/

/-- The registers' invariant holds after power-on. -/
def Obligations.RegsInvAfterPowerOn : Prop :=
  State.reset.RegsInv

/-- R37 (b), (c), (d) with R23, R24, R28: every step keeps the registers' invariant. -/
def Obligations.StepKeepsRegsInv : Prop :=
  ∀ s t : State, s.RegsInv → step s = .next t → t.RegsInv

/-- The trace's invariant holds after power-on. -/
def Obligations.TraceInvAfterPowerOn : Prop :=
  State.reset.TraceInv

/-- R33, R131, R31: every step keeps the trace made of whole pulses and the line levels equal to `dir` and `step`. -/
def Obligations.StepKeepsTraceInv : Prop :=
  ∀ s t : State, s.TraceInv → step s = .next t → t.TraceInv
end

