-- ==== Sys2Proof/Laws/Operands.lean ====
section
/-! SUPPORT. What the computations on operands do: the CRC over sequences, byte order, frames, the arithmetic. -/

namespace Sys2Proof.Machine

@[simp] theorem crc8_nil (order : BitOrder) : crc8 order [] = 0 := rfl

/-- The CRC of a sequence with one more byte is one turn of the outer loop from the CRC before it. -/
theorem crc8_concat (order : BitOrder) (bs : List Byte) (b : Byte) :
    crc8 order (bs ++ [b]) = crcByte order (crc8 order bs) b := by
  simp [crc8]

/-- The CRC of a concatenation goes on from the CRC of its first part. -/
theorem crc8_append (order : BitOrder) (a b : List Byte) :
    crc8 order (a ++ b) = b.foldl (crcByte order) (crc8 order a) := by
  simp [crc8]

/-- Two bytes before a third may change places under exclusive or. -/
theorem xor_swap (a b c : Byte) : a ^^^ (b ^^^ c) = b ^^^ (a ^^^ c) := by ac_rfl

/-- A byte met twice cancels under exclusive or. -/
theorem xor_cancel (a b : Byte) : a ^^^ (a ^^^ b) = b := by simp

/-- One turn of the inner loop is linear in the CRC and the byte together. -/
theorem crcStep_xor (b₁ b₂ c₁ c₂ : Byte) (i : Nat) :
    crcStep (b₁ ^^^ b₂) (c₁ ^^^ c₂) i = crcStep b₁ c₁ i ^^^ crcStep b₂ c₂ i := by
  simp only [crcStep, BitVec.getLsbD_xor, BitVec.shiftLeft_xor_distrib]
  generalize c₁.getLsbD 7 = p, c₂.getLsbD 7 = q, b₁.getLsbD i = u, b₂.getLsbD i = v
  generalize c₁ <<< 1 = x, c₂ <<< 1 = y
  cases p <;> cases q <;> cases u <;> cases v <;>
    simp [BitVec.xor_assoc, BitVec.xor_comm, xor_swap]

/-- The inner loop is linear in the CRC and the byte together, in either bit order. -/
theorem crcByte_xor (order : BitOrder) (c₁ c₂ b₁ b₂ : Byte) :
    crcByte order (c₁ ^^^ c₂) (b₁ ^^^ b₂) = crcByte order c₁ b₁ ^^^ crcByte order c₂ b₂ := by
  unfold crcByte
  induction crcBits order generalizing c₁ c₂ with
  | nil => rfl
  | cons i is ih => simp only [List.foldl_cons, crcStep_xor, ih]

@[simp] theorem be32_length (u : U32) : (be32 u).length = 4 := rfl

/-- Packing undoes unpacking. -/
@[simp] theorem ofBe32_extract (u : U32) :
    ofBe32 (u.extractLsb' 24 8) (u.extractLsb' 16 8) (u.extractLsb' 8 8) (u.extractLsb' 0 8) = u := by
  apply BitVec.eq_of_getLsbD_eq
  intro i hi
  simp only [ofBe32, BitVec.getLsbD_append, BitVec.getLsbD_extractLsb']
  interval_cases i <;> simp

/-- Unpacking undoes packing. -/
@[simp] theorem be32_ofBe32 (b3 b2 b1 b0 : Byte) : be32 (ofBe32 b3 b2 b1 b0) = [b3, b2, b1, b0] := by
  have h3 : (ofBe32 b3 b2 b1 b0).extractLsb' 24 8 = b3 := by
    apply BitVec.eq_of_getLsbD_eq
    intro i hi
    simp only [ofBe32, BitVec.getLsbD_append, BitVec.getLsbD_extractLsb']
    interval_cases i <;> simp
  have h2 : (ofBe32 b3 b2 b1 b0).extractLsb' 16 8 = b2 := by
    apply BitVec.eq_of_getLsbD_eq
    intro i hi
    simp only [ofBe32, BitVec.getLsbD_append, BitVec.getLsbD_extractLsb']
    interval_cases i <;> simp
  have h1 : (ofBe32 b3 b2 b1 b0).extractLsb' 8 8 = b1 := by
    apply BitVec.eq_of_getLsbD_eq
    intro i hi
    simp only [ofBe32, BitVec.getLsbD_append, BitVec.getLsbD_extractLsb']
    interval_cases i <;> simp
  have h0 : (ofBe32 b3 b2 b1 b0).extractLsb' 0 8 = b0 := by
    apply BitVec.eq_of_getLsbD_eq
    intro i hi
    simp only [ofBe32, BitVec.getLsbD_append, BitVec.getLsbD_extractLsb']
    interval_cases i <;> simp
  simp [be32, h3, h2, h1, h0]

/-- The four bytes of a value as numbers. -/
theorem be32_eq_ofNat (u : U32) :
    be32 u = [BitVec.ofNat 8 (u.toNat / 2 ^ 24), BitVec.ofNat 8 (u.toNat / 2 ^ 16), BitVec.ofNat 8 (u.toNat / 2 ^ 8),
      BitVec.ofNat 8 u.toNat] := by
  simp [be32, BitVec.extractLsb', Nat.shiftRight_eq_div_pow]

/-- The value of four bytes as a number. -/
theorem ofBe32_toNat (b3 b2 b1 b0 : Byte) :
    (ofBe32 b3 b2 b1 b0).toNat = b3.toNat * 2 ^ 24 + b2.toNat * 2 ^ 16 + b1.toNat * 2 ^ 8 + b0.toNat := by
  have or_add (x y : Nat) (b : Byte) (h : y = b.toNat) : x <<< 8 ||| y = x * 2 ^ 8 + y := by
    rw [← Nat.shiftLeft_add_eq_or_of_lt (by rw [h]; exact b.isLt), Nat.shiftLeft_eq]
  simp only [ofBe32, BitVec.toNat_append]
  rw [or_add _ _ b2 rfl, or_add _ _ b1 rfl, or_add _ _ b0 rfl]
  omega

/-- A legal driver address is below 4 (R79). -/
theorem legalAddr_iff (a : Byte) : legalAddr a = true ↔ a.toNat < 4 := by
  exact decide_eq_true_iff

/-- A legal register operand is below 0x80 (R80). -/
theorem legalReg_iff (r : Byte) : legalReg r = true ↔ r.toNat < 0x80 := by
  exact decide_eq_true_iff

/-- The absolute step count fits its 32 bits (R142). -/
theorem absSteps_toNat (n : I32) : (absSteps n).toNat = n.toInt.natAbs := by
  have h₁ := BitVec.toInt_lt (x := n)
  have h₂ := BitVec.le_toInt (x := n)
  simp only [absSteps, BitVec.toNat_ofNat]
  omega

/-- A step count is 0 only for `steps = 0`. -/
theorem absSteps_eq_zero_iff (n : I32) : absSteps n = 0 ↔ n = 0 := by
  rw [← BitVec.toNat_inj, absSteps_toNat, ← BitVec.toInt_inj]
  simp

end Sys2Proof.Machine
end

