-- ==== Sys2Proof/Laws/State.lean ====
section
/-! SUPPORT. What each update of the state does to each field: one lemma per field per update. -/

namespace Sys2Proof.Machine

@[simp] theorem State.respond_fault (s : State) (st : Status) (r : Result) : (s.respond st r).fault = s.fault := rfl
@[simp] theorem State.respond_remaining (s : State) (st : Status) (r : Result) : (s.respond st r).remaining = s.remaining := rfl
@[simp] theorem State.respond_rpm (s : State) (st : Status) (r : Result) : (s.respond st r).rpm = s.rpm := rfl
@[simp] theorem State.respond_delay (s : State) (st : Status) (r : Result) : (s.respond st r).delay = s.delay := rfl
@[simp] theorem State.respond_nextDue (s : State) (st : Status) (r : Result) : (s.respond st r).nextDue = s.nextDue := rfl
@[simp] theorem State.respond_mdiv (s : State) (st : Status) (r : Result) : (s.respond st r).mdiv = s.mdiv := rfl
@[simp] theorem State.respond_devVel (s : State) (st : Status) (r : Result) : (s.respond st r).devVel = s.devVel := rfl
@[simp] theorem State.respond_dir (s : State) (st : Status) (r : Result) : (s.respond st r).dir = s.dir := rfl
@[simp] theorem State.respond_step (s : State) (st : Status) (r : Result) : (s.respond st r).step = s.step := rfl
@[simp] theorem State.respond_trace (s : State) (st : Status) (r : Result) : (s.respond st r).trace = s.trace := rfl
@[simp] theorem State.respond_responses (s : State) (st : Status) (r : Result) : (s.respond st r).responses = s.responses ++ [⟨st, r⟩] := rfl
@[simp] theorem State.respond_inbox (s : State) (st : Status) (r : Result) : (s.respond st r).inbox = s.inbox := rfl
@[simp] theorem State.respond_draws (s : State) (st : Status) (r : Result) : (s.respond st r).draws = s.draws := rfl
@[simp] theorem State.respond_cfg (s : State) (st : Status) (r : Result) : (s.respond st r).cfg = s.cfg := rfl

@[simp] theorem State.driveDir_fault (s : State) (v : Bool) : (s.driveDir v).fault = s.fault := rfl
@[simp] theorem State.driveDir_remaining (s : State) (v : Bool) : (s.driveDir v).remaining = s.remaining := rfl
@[simp] theorem State.driveDir_rpm (s : State) (v : Bool) : (s.driveDir v).rpm = s.rpm := rfl
@[simp] theorem State.driveDir_delay (s : State) (v : Bool) : (s.driveDir v).delay = s.delay := rfl
@[simp] theorem State.driveDir_nextDue (s : State) (v : Bool) : (s.driveDir v).nextDue = s.nextDue := rfl
@[simp] theorem State.driveDir_mdiv (s : State) (v : Bool) : (s.driveDir v).mdiv = s.mdiv := rfl
@[simp] theorem State.driveDir_devVel (s : State) (v : Bool) : (s.driveDir v).devVel = s.devVel := rfl
@[simp] theorem State.driveDir_dir (s : State) (v : Bool) : (s.driveDir v).dir = v := rfl
@[simp] theorem State.driveDir_step (s : State) (v : Bool) : (s.driveDir v).step = s.step := rfl
@[simp] theorem State.driveDir_trace (s : State) (v : Bool) : (s.driveDir v).trace = s.trace ++ [.dir v] := rfl
@[simp] theorem State.driveDir_responses (s : State) (v : Bool) : (s.driveDir v).responses = s.responses := rfl
@[simp] theorem State.driveDir_inbox (s : State) (v : Bool) : (s.driveDir v).inbox = s.inbox := rfl
@[simp] theorem State.driveDir_draws (s : State) (v : Bool) : (s.driveDir v).draws = s.draws := rfl
@[simp] theorem State.driveDir_cfg (s : State) (v : Bool) : (s.driveDir v).cfg = s.cfg := rfl

@[simp] theorem State.driveStep_fault (s : State) (v : Bool) : (s.driveStep v).fault = s.fault := rfl
@[simp] theorem State.driveStep_remaining (s : State) (v : Bool) : (s.driveStep v).remaining = s.remaining := rfl
@[simp] theorem State.driveStep_rpm (s : State) (v : Bool) : (s.driveStep v).rpm = s.rpm := rfl
@[simp] theorem State.driveStep_delay (s : State) (v : Bool) : (s.driveStep v).delay = s.delay := rfl
@[simp] theorem State.driveStep_nextDue (s : State) (v : Bool) : (s.driveStep v).nextDue = s.nextDue := rfl
@[simp] theorem State.driveStep_mdiv (s : State) (v : Bool) : (s.driveStep v).mdiv = s.mdiv := rfl
@[simp] theorem State.driveStep_devVel (s : State) (v : Bool) : (s.driveStep v).devVel = s.devVel := rfl
@[simp] theorem State.driveStep_dir (s : State) (v : Bool) : (s.driveStep v).dir = s.dir := rfl
@[simp] theorem State.driveStep_step (s : State) (v : Bool) : (s.driveStep v).step = v := rfl
@[simp] theorem State.driveStep_trace (s : State) (v : Bool) : (s.driveStep v).trace = s.trace ++ [.step v] := rfl
@[simp] theorem State.driveStep_responses (s : State) (v : Bool) : (s.driveStep v).responses = s.responses := rfl
@[simp] theorem State.driveStep_inbox (s : State) (v : Bool) : (s.driveStep v).inbox = s.inbox := rfl
@[simp] theorem State.driveStep_draws (s : State) (v : Bool) : (s.driveStep v).draws = s.draws := rfl
@[simp] theorem State.driveStep_cfg (s : State) (v : Bool) : (s.driveStep v).cfg = s.cfg := rfl

@[simp] theorem State.pulse_fault (s : State) : s.pulse.fault = s.fault := rfl
@[simp] theorem State.pulse_remaining (s : State) : s.pulse.remaining = s.remaining := rfl
@[simp] theorem State.pulse_rpm (s : State) : s.pulse.rpm = s.rpm := rfl
@[simp] theorem State.pulse_delay (s : State) : s.pulse.delay = s.delay := rfl
@[simp] theorem State.pulse_nextDue (s : State) : s.pulse.nextDue = s.nextDue := rfl
@[simp] theorem State.pulse_mdiv (s : State) : s.pulse.mdiv = s.mdiv := rfl
@[simp] theorem State.pulse_devVel (s : State) : s.pulse.devVel = s.devVel := rfl
@[simp] theorem State.pulse_dir (s : State) : s.pulse.dir = s.dir := rfl
@[simp] theorem State.pulse_step (s : State) : s.pulse.step = false := rfl
@[simp] theorem State.pulse_trace (s : State) : s.pulse.trace = s.trace ++ [.step true, .step false] := by
  simp [State.pulse]
@[simp] theorem State.pulse_responses (s : State) : s.pulse.responses = s.responses := rfl
@[simp] theorem State.pulse_inbox (s : State) : s.pulse.inbox = s.inbox := rfl
@[simp] theorem State.pulse_draws (s : State) : s.pulse.draws = s.draws := rfl
@[simp] theorem State.pulse_cfg (s : State) : s.pulse.cfg = s.cfg := rfl

@[simp] theorem State.raise_fault (s : State) (c : FaultCode) : (s.raise c).fault = c.code := rfl
@[simp] theorem State.raise_remaining (s : State) (c : FaultCode) : (s.raise c).remaining = s.remaining := rfl
@[simp] theorem State.raise_rpm (s : State) (c : FaultCode) : (s.raise c).rpm = s.rpm := rfl
@[simp] theorem State.raise_delay (s : State) (c : FaultCode) : (s.raise c).delay = s.delay := rfl
@[simp] theorem State.raise_nextDue (s : State) (c : FaultCode) : (s.raise c).nextDue = s.nextDue := rfl
@[simp] theorem State.raise_mdiv (s : State) (c : FaultCode) : (s.raise c).mdiv = s.mdiv := rfl
@[simp] theorem State.raise_devVel (s : State) (c : FaultCode) : (s.raise c).devVel = s.devVel := rfl
@[simp] theorem State.raise_dir (s : State) (c : FaultCode) : (s.raise c).dir = s.dir := rfl
@[simp] theorem State.raise_step (s : State) (c : FaultCode) : (s.raise c).step = s.step := rfl
@[simp] theorem State.raise_trace (s : State) (c : FaultCode) : (s.raise c).trace = s.trace := rfl
@[simp] theorem State.raise_responses (s : State) (c : FaultCode) : (s.raise c).responses = s.responses ++ [⟨.faulted, .code c.code⟩] := rfl
@[simp] theorem State.raise_inbox (s : State) (c : FaultCode) : (s.raise c).inbox = s.inbox := rfl
@[simp] theorem State.raise_draws (s : State) (c : FaultCode) : (s.raise c).draws = s.draws := rfl
@[simp] theorem State.raise_cfg (s : State) (c : FaultCode) : (s.raise c).cfg = s.cfg := rfl

@[simp] theorem State.applyReset_fault (s : State) : s.applyReset.fault = 0 := rfl
@[simp] theorem State.applyReset_remaining (s : State) : s.applyReset.remaining = 0 := rfl
@[simp] theorem State.applyReset_rpm (s : State) : s.applyReset.rpm = 0 := rfl
@[simp] theorem State.applyReset_delay (s : State) : s.applyReset.delay = 0 := rfl
@[simp] theorem State.applyReset_nextDue (s : State) : s.applyReset.nextDue = 0 := rfl
@[simp] theorem State.applyReset_mdiv (s : State) : s.applyReset.mdiv = 0 := rfl
@[simp] theorem State.applyReset_devVel (s : State) : s.applyReset.devVel = false := rfl
@[simp] theorem State.applyReset_dir (s : State) : s.applyReset.dir = false := rfl
@[simp] theorem State.applyReset_step (s : State) : s.applyReset.step = false := rfl
@[simp] theorem State.applyReset_trace (s : State) : s.applyReset.trace = s.trace ++ [.reset] := rfl
@[simp] theorem State.applyReset_responses (s : State) : s.applyReset.responses = s.responses := rfl
@[simp] theorem State.applyReset_inbox (s : State) : s.applyReset.inbox = s.inbox := rfl
@[simp] theorem State.applyReset_draws (s : State) : s.applyReset.draws = s.draws := rfl
@[simp] theorem State.applyReset_cfg (s : State) : s.applyReset.cfg = s.cfg := rfl

@[simp] theorem State.countDraw_fault (s : State) : s.countDraw.fault = s.fault := rfl
@[simp] theorem State.countDraw_remaining (s : State) : s.countDraw.remaining = s.remaining := rfl
@[simp] theorem State.countDraw_rpm (s : State) : s.countDraw.rpm = s.rpm := rfl
@[simp] theorem State.countDraw_delay (s : State) : s.countDraw.delay = s.delay := rfl
@[simp] theorem State.countDraw_nextDue (s : State) : s.countDraw.nextDue = s.nextDue := rfl
@[simp] theorem State.countDraw_mdiv (s : State) : s.countDraw.mdiv = s.mdiv := rfl
@[simp] theorem State.countDraw_devVel (s : State) : s.countDraw.devVel = s.devVel := rfl
@[simp] theorem State.countDraw_dir (s : State) : s.countDraw.dir = s.dir := rfl
@[simp] theorem State.countDraw_step (s : State) : s.countDraw.step = s.step := rfl
@[simp] theorem State.countDraw_trace (s : State) : s.countDraw.trace = s.trace := rfl
@[simp] theorem State.countDraw_responses (s : State) : s.countDraw.responses = s.responses := rfl
@[simp] theorem State.countDraw_inbox (s : State) : s.countDraw.inbox = s.inbox := rfl
@[simp] theorem State.countDraw_draws (s : State) : s.countDraw.draws = s.draws + 1 := rfl
@[simp] theorem State.countDraw_cfg (s : State) : s.countDraw.cfg = s.cfg := rfl

@[simp] theorem State.loadMove_fault (s : State) (n : I32) (rpm : U32) : (s.loadMove n rpm).fault = s.fault := rfl
@[simp] theorem State.loadMove_remaining (s : State) (n : I32) (rpm : U32) : (s.loadMove n rpm).remaining = absSteps n := rfl
@[simp] theorem State.loadMove_rpm (s : State) (n : I32) (rpm : U32) : (s.loadMove n rpm).rpm = rpm := rfl
@[simp] theorem State.loadMove_delay (s : State) (n : I32) (rpm : U32) : (s.loadMove n rpm).delay = moveDelay rpm s.mdiv := rfl
@[simp] theorem State.loadMove_nextDue (s : State) (n : I32) (rpm : U32) : (s.loadMove n rpm).nextDue = s.nextDue := rfl
@[simp] theorem State.loadMove_mdiv (s : State) (n : I32) (rpm : U32) : (s.loadMove n rpm).mdiv = s.mdiv := rfl
@[simp] theorem State.loadMove_devVel (s : State) (n : I32) (rpm : U32) : (s.loadMove n rpm).devVel = s.devVel := rfl
@[simp] theorem State.loadMove_dir (s : State) (n : I32) (rpm : U32) : (s.loadMove n rpm).dir = s.dir := rfl
@[simp] theorem State.loadMove_step (s : State) (n : I32) (rpm : U32) : (s.loadMove n rpm).step = s.step := rfl
@[simp] theorem State.loadMove_trace (s : State) (n : I32) (rpm : U32) : (s.loadMove n rpm).trace = s.trace := rfl
@[simp] theorem State.loadMove_responses (s : State) (n : I32) (rpm : U32) : (s.loadMove n rpm).responses = s.responses := rfl
@[simp] theorem State.loadMove_inbox (s : State) (n : I32) (rpm : U32) : (s.loadMove n rpm).inbox = s.inbox := rfl
@[simp] theorem State.loadMove_draws (s : State) (n : I32) (rpm : U32) : (s.loadMove n rpm).draws = s.draws := rfl
@[simp] theorem State.loadMove_cfg (s : State) (n : I32) (rpm : U32) : (s.loadMove n rpm).cfg = s.cfg := rfl

@[simp] theorem State.schedule_fault (s : State) (t : Rat) : (s.schedule t).fault = s.fault := rfl
@[simp] theorem State.schedule_remaining (s : State) (t : Rat) : (s.schedule t).remaining = s.remaining := rfl
@[simp] theorem State.schedule_rpm (s : State) (t : Rat) : (s.schedule t).rpm = s.rpm := rfl
@[simp] theorem State.schedule_delay (s : State) (t : Rat) : (s.schedule t).delay = s.delay := rfl
@[simp] theorem State.schedule_nextDue (s : State) (t : Rat) : (s.schedule t).nextDue = t := rfl
@[simp] theorem State.schedule_mdiv (s : State) (t : Rat) : (s.schedule t).mdiv = s.mdiv := rfl
@[simp] theorem State.schedule_devVel (s : State) (t : Rat) : (s.schedule t).devVel = s.devVel := rfl
@[simp] theorem State.schedule_dir (s : State) (t : Rat) : (s.schedule t).dir = s.dir := rfl
@[simp] theorem State.schedule_step (s : State) (t : Rat) : (s.schedule t).step = s.step := rfl
@[simp] theorem State.schedule_trace (s : State) (t : Rat) : (s.schedule t).trace = s.trace := rfl
@[simp] theorem State.schedule_responses (s : State) (t : Rat) : (s.schedule t).responses = s.responses := rfl
@[simp] theorem State.schedule_inbox (s : State) (t : Rat) : (s.schedule t).inbox = s.inbox := rfl
@[simp] theorem State.schedule_draws (s : State) (t : Rat) : (s.schedule t).draws = s.draws := rfl
@[simp] theorem State.schedule_cfg (s : State) (t : Rat) : (s.schedule t).cfg = s.cfg := rfl

@[simp] theorem State.countStep_fault (s : State) : s.countStep.fault = s.fault := rfl
@[simp] theorem State.countStep_remaining (s : State) : s.countStep.remaining = s.remaining - 1 := rfl
@[simp] theorem State.countStep_rpm (s : State) : s.countStep.rpm = s.rpm := rfl
@[simp] theorem State.countStep_delay (s : State) : s.countStep.delay = s.delay := rfl
@[simp] theorem State.countStep_nextDue (s : State) : s.countStep.nextDue = s.nextDue := rfl
@[simp] theorem State.countStep_mdiv (s : State) : s.countStep.mdiv = s.mdiv := rfl
@[simp] theorem State.countStep_devVel (s : State) : s.countStep.devVel = s.devVel := rfl
@[simp] theorem State.countStep_dir (s : State) : s.countStep.dir = s.dir := rfl
@[simp] theorem State.countStep_step (s : State) : s.countStep.step = s.step := rfl
@[simp] theorem State.countStep_trace (s : State) : s.countStep.trace = s.trace := rfl
@[simp] theorem State.countStep_responses (s : State) : s.countStep.responses = s.responses := rfl
@[simp] theorem State.countStep_inbox (s : State) : s.countStep.inbox = s.inbox := rfl
@[simp] theorem State.countStep_draws (s : State) : s.countStep.draws = s.draws := rfl
@[simp] theorem State.countStep_cfg (s : State) : s.countStep.cfg = s.cfg := rfl

@[simp] theorem State.loadDivisor_fault (s : State) (d : Nat) : (s.loadDivisor d).fault = s.fault := rfl
@[simp] theorem State.loadDivisor_remaining (s : State) (d : Nat) : (s.loadDivisor d).remaining = s.remaining := rfl
@[simp] theorem State.loadDivisor_rpm (s : State) (d : Nat) : (s.loadDivisor d).rpm = s.rpm := rfl
@[simp] theorem State.loadDivisor_delay (s : State) (d : Nat) : (s.loadDivisor d).delay = if s.rpm = 0 then s.delay else delayMs s.rpm d := rfl
@[simp] theorem State.loadDivisor_nextDue (s : State) (d : Nat) : (s.loadDivisor d).nextDue = s.nextDue := rfl
@[simp] theorem State.loadDivisor_mdiv (s : State) (d : Nat) : (s.loadDivisor d).mdiv = d := rfl
@[simp] theorem State.loadDivisor_devVel (s : State) (d : Nat) : (s.loadDivisor d).devVel = s.devVel := rfl
@[simp] theorem State.loadDivisor_dir (s : State) (d : Nat) : (s.loadDivisor d).dir = s.dir := rfl
@[simp] theorem State.loadDivisor_step (s : State) (d : Nat) : (s.loadDivisor d).step = s.step := rfl
@[simp] theorem State.loadDivisor_trace (s : State) (d : Nat) : (s.loadDivisor d).trace = s.trace := rfl
@[simp] theorem State.loadDivisor_responses (s : State) (d : Nat) : (s.loadDivisor d).responses = s.responses := rfl
@[simp] theorem State.loadDivisor_inbox (s : State) (d : Nat) : (s.loadDivisor d).inbox = s.inbox := rfl
@[simp] theorem State.loadDivisor_draws (s : State) (d : Nat) : (s.loadDivisor d).draws = s.draws := rfl
@[simp] theorem State.loadDivisor_cfg (s : State) (d : Nat) : (s.loadDivisor d).cfg = s.cfg := rfl

@[simp] theorem State.halt_fault (s : State) : s.halt.fault = s.fault := rfl
@[simp] theorem State.halt_remaining (s : State) : s.halt.remaining = 0 := rfl
@[simp] theorem State.halt_rpm (s : State) : s.halt.rpm = s.rpm := rfl
@[simp] theorem State.halt_delay (s : State) : s.halt.delay = s.delay := rfl
@[simp] theorem State.halt_nextDue (s : State) : s.halt.nextDue = s.nextDue := rfl
@[simp] theorem State.halt_mdiv (s : State) : s.halt.mdiv = s.mdiv := rfl
@[simp] theorem State.halt_devVel (s : State) : s.halt.devVel = false := rfl
@[simp] theorem State.halt_dir (s : State) : s.halt.dir = s.dir := rfl
@[simp] theorem State.halt_step (s : State) : s.halt.step = s.step := rfl
@[simp] theorem State.halt_trace (s : State) : s.halt.trace = s.trace := rfl
@[simp] theorem State.halt_responses (s : State) : s.halt.responses = s.responses := rfl
@[simp] theorem State.halt_inbox (s : State) : s.halt.inbox = s.inbox := rfl
@[simp] theorem State.halt_draws (s : State) : s.halt.draws = s.draws := rfl
@[simp] theorem State.halt_cfg (s : State) : s.halt.cfg = s.cfg := rfl

@[simp] theorem State.enterDevVel_fault (s : State) : s.enterDevVel.fault = s.fault := rfl
@[simp] theorem State.enterDevVel_remaining (s : State) : s.enterDevVel.remaining = s.remaining := rfl
@[simp] theorem State.enterDevVel_rpm (s : State) : s.enterDevVel.rpm = s.rpm := rfl
@[simp] theorem State.enterDevVel_delay (s : State) : s.enterDevVel.delay = s.delay := rfl
@[simp] theorem State.enterDevVel_nextDue (s : State) : s.enterDevVel.nextDue = s.nextDue := rfl
@[simp] theorem State.enterDevVel_mdiv (s : State) : s.enterDevVel.mdiv = s.mdiv := rfl
@[simp] theorem State.enterDevVel_devVel (s : State) : s.enterDevVel.devVel = true := rfl
@[simp] theorem State.enterDevVel_dir (s : State) : s.enterDevVel.dir = s.dir := rfl
@[simp] theorem State.enterDevVel_step (s : State) : s.enterDevVel.step = s.step := rfl
@[simp] theorem State.enterDevVel_trace (s : State) : s.enterDevVel.trace = s.trace := rfl
@[simp] theorem State.enterDevVel_responses (s : State) : s.enterDevVel.responses = s.responses := rfl
@[simp] theorem State.enterDevVel_inbox (s : State) : s.enterDevVel.inbox = s.inbox := rfl
@[simp] theorem State.enterDevVel_draws (s : State) : s.enterDevVel.draws = s.draws := rfl
@[simp] theorem State.enterDevVel_cfg (s : State) : s.enterDevVel.cfg = s.cfg := rfl

@[simp] theorem State.pushRecord_fault (s : State) (r : Record) : (s.pushRecord r).fault = s.fault := rfl
@[simp] theorem State.pushRecord_remaining (s : State) (r : Record) : (s.pushRecord r).remaining = s.remaining := rfl
@[simp] theorem State.pushRecord_rpm (s : State) (r : Record) : (s.pushRecord r).rpm = s.rpm := rfl
@[simp] theorem State.pushRecord_delay (s : State) (r : Record) : (s.pushRecord r).delay = s.delay := rfl
@[simp] theorem State.pushRecord_nextDue (s : State) (r : Record) : (s.pushRecord r).nextDue = s.nextDue := rfl
@[simp] theorem State.pushRecord_mdiv (s : State) (r : Record) : (s.pushRecord r).mdiv = s.mdiv := rfl
@[simp] theorem State.pushRecord_devVel (s : State) (r : Record) : (s.pushRecord r).devVel = s.devVel := rfl
@[simp] theorem State.pushRecord_dir (s : State) (r : Record) : (s.pushRecord r).dir = s.dir := rfl
@[simp] theorem State.pushRecord_step (s : State) (r : Record) : (s.pushRecord r).step = s.step := rfl
@[simp] theorem State.pushRecord_trace (s : State) (r : Record) : (s.pushRecord r).trace = s.trace := rfl
@[simp] theorem State.pushRecord_responses (s : State) (r : Record) : (s.pushRecord r).responses = s.responses := rfl
@[simp] theorem State.pushRecord_inbox (s : State) (r : Record) : (s.pushRecord r).inbox = .record r :: s.inbox := rfl
@[simp] theorem State.pushRecord_draws (s : State) (r : Record) : (s.pushRecord r).draws = s.draws := rfl
@[simp] theorem State.pushRecord_cfg (s : State) (r : Record) : (s.pushRecord r).cfg = s.cfg := rfl

end Sys2Proof.Machine
end

