-- ==== Sys2Proof/Laws/Ops.lean ====
section
/-! SUPPORT. What each shared operation can do, once. -/

namespace Sys2Proof.Machine

/-- In a healthy state the prologue runs the command (R173). -/
theorem prologue_healthy {s : State} (h : s.fault = 0) (body : State → Answer) : prologue s body = body s := by
  simp [prologue, h]

/-- With a fault latched the prologue refuses the command (R173). -/
theorem prologue_latched {s : State} (h : s.fault ≠ 0) (body : State → Answer) :
    prologue s body = .next (s.respond .faulted (.code s.fault)) := by
  exact if_neg h

/-- Everything a command can answer with a next state: the refusal of a latched fault, or its own effect. -/
theorem prologue_next {s t : State} {body : State → Answer} (h : prologue s body = .next t) :
    (s.fault ≠ 0 ∧ t = s.respond .faulted (.code s.fault)) ∨ (s.fault = 0 ∧ body s = .next t) := by
  by_cases h0 : s.fault = 0
  · exact .inr ⟨h0, by rwa [prologue_healthy h0] at h⟩
  · rw [prologue_latched h0] at h
    exact .inl ⟨h0, (Host.Outcome.next.inj h).symm⟩

/-- In a healthy state an illegal op raises ILLEGAL_COMMAND (R73). -/
theorem illegalCommand_healthy {s : State} (h : s.fault = 0) :
    illegalCommand s = .next (s.raise .illegalCommand) :=
  prologue_healthy h _

/-- With a fault latched an illegal op is refused like any command (R173). -/
theorem illegalCommand_latched {s : State} (h : s.fault ≠ 0) :
    illegalCommand s = .next (s.respond .faulted (.code s.fault)) :=
  prologue_latched h _

/-- The three answers of the address checks (R176). -/
theorem withLegalTarget_cases (addr reg : Byte) (s : State) (body : State → Answer) :
    (4 ≤ addr.toNat ∧ withLegalTarget addr reg s body = .next (s.raise .badDriverAddr)) ∨
    (addr.toNat < 4 ∧ 0x80 ≤ reg.toNat ∧ withLegalTarget addr reg s body = .next (s.raise .badRegister)) ∨
    (addr.toNat < 4 ∧ reg.toNat < 0x80 ∧ withLegalTarget addr reg s body = body s) := by
  by_cases ha : addr.toNat < 4 <;> by_cases hr : reg.toNat < 0x80
  · exact .inr (.inr ⟨ha, hr, by simp [withLegalTarget, (legalAddr_iff _).2 ha, (legalReg_iff _).2 hr]⟩)
  · have : legalReg reg = false := Bool.eq_false_iff.2 (mt (legalReg_iff reg).1 hr)
    exact .inr (.inl ⟨ha, by omega, by simp [withLegalTarget, (legalAddr_iff _).2 ha, this]⟩)
  all_goals
    have : legalAddr addr = false := Bool.eq_false_iff.2 (mt (legalAddr_iff addr).1 ha)
    exact .inl ⟨by omega, by simp [withLegalTarget, this]⟩

/-- Every verdict on a read-back (R107). -/
theorem readbackResponse_cases (order : BitOrder) (bs : List Byte) :
    readbackResponse order bs = ⟨.shortReply, .none⟩ ∨ readbackResponse order bs = ⟨.checksumMismatch, .none⟩ ∨
      ∃ v, readbackResponse order bs = ⟨.ok, .datum v⟩ := by
  unfold readbackResponse
  split
  · exact .inl rfl
  · split
    · exact .inl rfl
    · split
      · exact .inr (.inl rfl)
      · exact .inr (.inr ⟨_, rfl⟩)

/-- The verdict as one response more. -/
theorem judgeReadback_eq (bs : List Byte) (s : State) :
    judgeReadback bs s =
      .next { s with responses := s.responses ++ [readbackResponse s.cfg.crcOrder bs] } := rfl

/-- A due POLL that counts the last step off emits no pulse (R136). -/
theorem duePoll_last {s : State} (now : Rat) (h : s.remaining - 1 = 0) :
    s.duePoll now = { s with remaining := s.remaining - 1, nextDue := now + s.delay } := by
  have h' : s.countStep.remaining = 0 := h
  simp only [State.duePoll, if_pos h']
  rfl

/-- A due POLL with steps still remaining emits one pulse (R136). -/
theorem duePoll_more {s : State} (now : Rat) (h : s.remaining - 1 ≠ 0) :
    s.duePoll now =
      { s with
        remaining := s.remaining - 1
        nextDue := now + s.delay
        step := false
        trace := s.trace ++ [.step true, .step false] } := by
  have h' : s.countStep.remaining ≠ 0 := h
  simp only [State.duePoll, if_neg h']
  simp [State.countStep, State.schedule, State.pulse, State.driveStep]

/-- A command record is refused by the decoder as an illegal op exactly when R72 does not list its op byte. -/
theorem decodeCommand_illegal_iff (op : Byte) (operands : List Operand) :
    decodeCommand op operands = .error (.illegalOp op) ↔ operandKinds op = none := by
  unfold decodeCommand operandKinds
  split <;> (try split) <;> simp_all

end Sys2Proof.Machine
end

