-- ==== Sys2Proof/Laws/PerInstr.lean ====
section
/-! SUPPORT. Statements for all instructions, one lemma per constructor. -/

namespace Sys2Proof.Laws.EncodingShape

open Sys2Proof.Machine

/-- The encoding of `i` has a shape that spec/30_encoding.md gives: a command record with the operand types R72 lists
for its op byte; a request frame that begins with the sync byte and whose length goes with bit 7 of its offset-2 byte
(R75, R76, R82); or received bytes of a reply's or a read-back's length (R77, R78). -/
def Statement (i : Instr) : Prop :=
  ∀ cfg : Config,
    match encode cfg i with
    | .command op operands => operandKinds op = some (operands.map Operand.kind)
    | .request bytes =>
      bytes.head? = some cfg.syncByte ∧
        (bytes.length = 4 ∧ (byteAt bytes 2).getLsbD 7 = false ∨
          bytes.length = 8 ∧ (byteAt bytes 2).getLsbD 7 = true)
    | .received bytes => bytes.length = 8 ∨ bytes.length = 12

theorem crc8 (bs : List Byte) : Statement (.crc8 bs) := fun _ => rfl

theorem encodeRead (addr reg : Byte) : Statement (.encodeRead addr reg) := fun _ => rfl

theorem encodeWrite (addr reg : Byte) (value : Int) : Statement (.encodeWrite addr reg value) := fun _ => rfl

theorem checkFrame (bs : List Byte) : Statement (.checkFrame bs) := fun _ => rfl

theorem validateReadback (bs : List Byte) : Statement (.validateReadback bs) := fun _ => rfl

theorem setDivisor (d : U32) : Statement (.setDivisor d) := fun _ => rfl

theorem move (steps : I32) (rpm : U32) (now : Rat) : Statement (.move steps rpm now) := fun _ => rfl

theorem poll (now : Rat) : Statement (.poll now) := fun _ => rfl

theorem stop : Statement .stop := fun _ => rfl

theorem velocityMode : Statement .velocityMode := fun _ => rfl

theorem readRequest (addr : BitVec 2) (reg : BitVec 7) (crc : Byte) : Statement (.readRequest addr reg crc) := by
  intro cfg
  refine ⟨rfl, .inl ⟨rfl, ?_⟩⟩
  simp [byteAt]

theorem writeRequest (addr : BitVec 2) (reg : BitVec 7) (value : U32) (crc : Byte) :
    Statement (.writeRequest addr reg value crc) := by
  intro cfg
  refine ⟨rfl, .inr ⟨rfl, ?_⟩⟩
  simp [byteAt, writeFlag]

theorem reply (sync addr reg : Byte) (data : U32) (crc : Byte) : Statement (.reply sync addr reg data crc) :=
  fun _ => .inl rfl

theorem readback (echo : U32) (sync addr reg : Byte) (data : U32) (crc : Byte) :
    Statement (.readback echo sync addr reg data crc) :=
  fun _ => .inr rfl

end Sys2Proof.Laws.EncodingShape
end

