-- ==== Sys2Proof/Tests/Slice0.lean ====
section
/-! SUPPORT. Tests: ill-formed instructions, records written out from the encodings, the vectors of
spec/95_test_vectors.md, and for each statement with hypotheses a witness that meets them. -/

namespace Sys2Proof.Tests

open Sys2Proof Sys2Proof.Machine

/-! ### Helpers -/

/-- The next state of an answer. -/
def nextState : Answer → Option State
  | .next s => some s
  | .fault _ => none
  | .refused _ => none

/-- The response an answer ends with. -/
def lastResponse (a : Answer) : Option Response := (nextState a).bind fun s => s.responses.getLast?

/-- The next state without the response. -/
def quietState (a : Answer) : Option State := (nextState a).map fun s => { s with responses := [] }

/-- The answer is a next state in which `p` holds. -/
def nextWith (a : Answer) (p : State → Bool) : Bool :=
  match nextState a with
  | some s => p s
  | none => false

theorem exists_of_nextWith {a : Answer} {p : State → Bool} (h : nextWith a p = true) :
    ∃ t, a = .next t ∧ p t = true := by
  cases a <;> simp_all [nextWith, nextState]

/-- `mdiv = 8` set. -/
def ready : State := { State.reset with mdiv := 8 }

/-- The registers of V-MV1's end state. -/
def moving : State := { ready with remaining := 100, rpm := 30, delay := 5 / 4, nextDue := 4005 / 4 }

/-- The last step of a move is due at 10 (V-PL4). -/
def lastStep : State := { moving with remaining := 1, nextDue := 10 }

/-- A latched NOT_INITIALIZED. -/
def latched : State := { State.reset with fault := 5 }

/-- The same with `dev_vel = 1` (V-PL7). -/
def velocity : State := { moving with devVel := true }

/-- The parameter `CRC_DATA_BIT_ORDER` at its other value. -/
def lsbState : State := { State.reset with cfg := { defaultConfig with crcOrder := .lsbFirst } }

/-- `s` with these inputs sent. -/
def given (s : State) (inputs : List Input) : State := { s with inbox := inputs }

/-! ### Ill-formed instructions -/

/-- `addr < 4` (R79): 3 is legal, 4 is not. -/
theorem test_wf_read_addr :
    Instr.wellFormed (.encodeRead 4 0) = false ∧ Instr.wellFormed (.encodeRead 3 0x7F) = true := by decide

/-- `reg < 0x80` (R80). -/
theorem test_wf_read_reg : Instr.wellFormed (.encodeRead 0 0x80) = false := by decide

theorem test_wf_write_addr :
    Instr.wellFormed (.encodeWrite 4 0 0) = false ∧ Instr.wellFormed (.encodeWrite 3 0x7F 0) = true := by decide

theorem test_wf_write_reg : Instr.wellFormed (.encodeWrite 0 0xA2 0) = false := by decide

/-- CHECK_FRAME takes at least one byte (R72). -/
theorem test_wf_check_frame :
    Instr.wellFormed (.checkFrame []) = false ∧ Instr.wellFormed (.checkFrame [0]) = true := by decide

/-! ### Records written out from R72 and R75 to R78 -/

theorem test_decode_crc8 :
    decode defaultConfig (.command 0b00000001 [.bytes [0x55, 0x00]]) = .ok (.crc8 [0x55, 0x00]) := by decide

theorem test_decode_encode_read :
    decode defaultConfig (.command 0b00000010 [.u8 2, .u8 0x10]) = .ok (.encodeRead 2 0x10) := by decide

theorem test_decode_encode_write :
    decode defaultConfig (.command 0b00000011 [.u8 3, .u8 0x7F, .int (-1)]) = .ok (.encodeWrite 3 0x7F (-1)) := by
  decide

theorem test_decode_check_frame :
    decode defaultConfig (.command 0b00000100 [.bytes [0x01]]) = .ok (.checkFrame [0x01]) := by decide

theorem test_decode_validate_readback :
    decode defaultConfig (.command 0b00000101 [.bytes []]) = .ok (.validateReadback []) := by decide

theorem test_decode_set_divisor :
    decode defaultConfig (.command 0b00010000 [.u32 8]) = .ok (.setDivisor 8) := by decide

theorem test_decode_move :
    decode defaultConfig (.command 0b00010001 [.i32 (-100), .u32 30, .rat 1000]) = .ok (.move (-100) 30 1000) := by
  decide +kernel

theorem test_decode_poll :
    decode defaultConfig (.command 0b00010010 [.rat (8005 / 8)]) = .ok (.poll (8005 / 8)) := by decide +kernel

theorem test_decode_stop : decode defaultConfig (.command 0b00010011 []) = .ok .stop := by decide

theorem test_decode_velocity_mode : decode defaultConfig (.command 0b00010100 []) = .ok .velocityMode := by decide

/-- `SSSSSSSS 000000aa 0rrrrrrr cccccccc`. -/
theorem test_decode_read_request :
    decode defaultConfig (.request [0b01010101, 0b00000010, 0b00010000, 0b10111110]) =
      .ok (.readRequest 0b10 0b0010000 0b10111110) := by decide

/-- `SSSSSSSS 000000aa 1rrrrrrr`, four bytes of `v`, `c` (V-EW9). -/
theorem test_decode_write_request :
    decode defaultConfig (.request [0b01010101, 0b00000011, 0b11111111, 0x12, 0x34, 0x56, 0x78, 0x62]) =
      .ok (.writeRequest 0b11 0b1111111 0x12345678 0x62) := by decide

/-- `y a r`, four bytes of `d`, `c` (V-RB14's reply). -/
theorem test_decode_reply :
    decode defaultConfig (.received [0x05, 0xFF, 0x02, 0x00, 0x00, 0x00, 0x07, 0xD4]) =
      .ok (.reply 0x05 0xFF 0x02 7 0xD4) := by decide

/-- Four bytes of `e`, then a reply (V-RB7). -/
theorem test_decode_readback :
    decode defaultConfig
      (.received [0x55, 0x00, 0x02, 0xEA, 0x55, 0x00, 0x02, 0x12, 0x34, 0x56, 0x78, 0xE4]) =
      .ok (.readback 0x550002EA 0x55 0x00 0x02 0x12345678 0xE4) := by decide

/-- A request with a wrong sync byte, an address of 4, or a read request's length with the write flag is no frame. -/
theorem test_decode_not_a_request :
    decode defaultConfig (.request [0x54, 0x00, 0x02, 0xEA]) = .error .notAFrame ∧
    decode defaultConfig (.request [0x55, 0x04, 0x02, 0xEA]) = .error .notAFrame ∧
    decode defaultConfig (.request [0x55, 0x00, 0x82, 0xEA]) = .error .notAFrame := by decide

/-- R73: neighbours of the legal op bytes. -/
theorem test_decode_illegal_ops :
    decode defaultConfig (.command 0x00 []) = .error (.illegalOp 0x00) ∧
    decode defaultConfig (.command 0x06 []) = .error (.illegalOp 0x06) ∧
    decode defaultConfig (.command 0x0F []) = .error (.illegalOp 0x0F) ∧
    decode defaultConfig (.command 0x15 []) = .error (.illegalOp 0x15) ∧
    decode defaultConfig (.command 0xFF []) = .error (.illegalOp 0xFF) := by decide

/-! ### The vectors of spec/95_test_vectors.md -/

/-- V-C10, both bit orders. -/
theorem test_crc8_check_value :
    lastResponse (exec (.crc8 [0x31, 0x32, 0x33, 0x34, 0x35, 0x36, 0x37, 0x38, 0x39]) State.reset) =
      some ⟨.ok, .crc 0xF4⟩ ∧
    lastResponse (exec (.crc8 [0x31, 0x32, 0x33, 0x34, 0x35, 0x36, 0x37, 0x38, 0x39]) lsbState) =
      some ⟨.ok, .crc 0x04⟩ := by decide +kernel

/-- V-C4 and V-C8, both bit orders. -/
theorem test_crc8_small :
    crc8 .msbFirst [0x01] = 0x07 ∧ crc8 .lsbFirst [0x01] = 0x89 ∧
    crc8 .msbFirst [0x55, 0x00, 0x00] = 0xE4 ∧ crc8 .lsbFirst [0x55, 0x00, 0x00] = 0xCF := by decide +kernel

/-- R102 (c) LSB first does not fit R101's loop (log entry 14): by hand from the loop, 01 gives 89, 89 gives FE, and 01 00
gives B6, where a table at `c ^ b` would give FE. -/
theorem test_crc8_lsb_has_no_table :
    crc8 .lsbFirst [0x01] = 0x89 ∧ crc8 .lsbFirst [0x89] = 0xFE ∧ crc8 .lsbFirst [0x01, 0x00] = 0xB6 := by
  decide +kernel

/-- V-ER4, both bit orders. -/
theorem test_encode_read :
    lastResponse (exec (.encodeRead 2 0x10) State.reset) = some ⟨.ok, .frame [0x55, 0x02, 0x10, 0xBE]⟩ ∧
    lastResponse (exec (.encodeRead 2 0x10) lsbState) = some ⟨.ok, .frame [0x55, 0x02, 0x10, 0xAC]⟩ := by
  decide +kernel

/-- V-ER10: the address is checked first. -/
theorem test_encode_read_order :
    lastResponse (exec (.encodeRead 7 0xFF) State.reset) = some ⟨.faulted, .code 0x02⟩ := by decide

/-- V-EW1. -/
theorem test_encode_write :
    lastResponse (exec (.encodeWrite 0 0x10 0x00081F10) State.reset) =
      some ⟨.ok, .frame [0x55, 0x00, 0x90, 0x00, 0x08, 0x1F, 0x10, 0x2C]⟩ := by decide +kernel

/-- V-EW5 and V-EW11: a negative value, and one reduced mod 2^32. -/
theorem test_encode_write_wraps :
    lastResponse (exec (.encodeWrite 0 0x22 (-1)) State.reset) =
      some ⟨.ok, .frame [0x55, 0x00, 0xA2, 0xFF, 0xFF, 0xFF, 0xFF, 0xD5]⟩ ∧
    lastResponse (exec (.encodeWrite 0 0x22 4294967301) State.reset) =
      some ⟨.ok, .frame [0x55, 0x00, 0xA2, 0x00, 0x00, 0x00, 0x05, 0x10]⟩ := by decide +kernel

/-- V-CF2, V-CF3 and V-CF5. -/
theorem test_check_frame :
    lastResponse (exec (.checkFrame [0x55, 0x00, 0xA2, 0xFF, 0xFF, 0xFF, 0xFF, 0xD5]) State.reset) =
      some ⟨.ok, .bit true⟩ ∧
    lastResponse (exec (.checkFrame [0x55, 0x00, 0xA2, 0xFF, 0xFF, 0xFF, 0xFF, 0xD4]) State.reset) =
      some ⟨.checksumMismatch, .bit false⟩ ∧
    lastResponse (exec (.checkFrame [0x00]) State.reset) = some ⟨.ok, .bit true⟩ := by decide +kernel

/-- V-CF8. -/
theorem test_check_frame_empty :
    quietState (exec (.checkFrame []) State.reset) = some { State.reset with fault := 0x04 } := by decide +kernel

/-- V-RB5, V-RB8, V-RB11 and V-RB12. -/
theorem test_validate_readback :
    lastResponse (exec (.validateReadback [0x55, 0, 2, 0xEA, 0x55, 0, 2, 0xFF, 0xFF, 0xFF, 0xFF, 0x26]) State.reset) =
      some ⟨.ok, .datum (-1)⟩ ∧
    lastResponse (exec (.validateReadback [0x55, 0, 2, 0xEA, 0x55, 0, 2, 0, 0, 0, 7, 0xEC]) State.reset) =
      some ⟨.checksumMismatch, .none⟩ ∧
    lastResponse (exec (.validateReadback (List.replicate 12 0)) State.reset) = some ⟨.shortReply, .none⟩ ∧
    lastResponse (exec (.validateReadback [0x55, 0, 2, 0xEA, 0, 0, 0, 0, 0, 0, 0, 0]) State.reset) =
      some ⟨.ok, .datum 0⟩ := by decide +kernel

/-- V-RB9, V-RB10 and V-RB16. -/
theorem test_validate_readback_length_and_order :
    lastResponse (exec (.validateReadback [0x55, 0, 2, 0xEA, 0x55, 0, 2, 0, 0, 0, 7]) State.reset) =
      some ⟨.shortReply, .none⟩ ∧
    lastResponse (exec (.validateReadback [0x55, 0, 2, 0xEA, 0x55, 0, 2, 0, 0, 0, 7, 0xED, 0]) State.reset) =
      some ⟨.shortReply, .none⟩ ∧
    lastResponse (exec (.validateReadback [0x55, 0, 2, 0xEA, 0x55, 0, 2, 0, 0, 0, 7, 0x1E]) lsbState) =
      some ⟨.ok, .datum 7⟩ := by decide +kernel

/-- V-SD14: the divisor changes the delay and not the pulse already scheduled. -/
theorem test_set_divisor :
    nextState (exec (.setDivisor 16)
      { ready with rpm := 60, delay := 5 / 8, nextDue := 5 / 8, remaining := 10 }) =
      some { ready with
        mdiv := 16, rpm := 60, delay := 5 / 16, nextDue := 5 / 8, remaining := 10, responses := [⟨.ok, .mres 4⟩] } := by
  decide +kernel

/-- V-SD10, V-SD12 and V-SD9. -/
theorem test_set_divisor_range :
    nextState (exec (.setDivisor 0) State.reset) =
      some { State.reset with responses := [⟨.invalidConfig, .none⟩] } ∧
    lastResponse (exec (.setDivisor 512) State.reset) = some ⟨.invalidConfig, .none⟩ ∧
    lastResponse (exec (.setDivisor 256) State.reset) = some ⟨.ok, .mres 0⟩ := by decide +kernel

/-- V-MV1: a reverse move. -/
theorem test_move_reverse :
    quietState (exec (.move (-100) 30 1000) ready) =
      some { moving with dir := false, trace := [.reset, .dir false, .step true, .step false], draws := 1 } := by
  decide +kernel

/-- V-MV6 and V-MV8: the least number of steps, and the fault before the status. -/
theorem test_move_extremes :
    (quietState (exec (.move (-2147483648) 1 0) { State.reset with mdiv := 1 })).map
        (fun s => (s.dir, s.remaining, s.delay, s.nextDue)) = some (false, 2147483648, 300, 300) ∧
    lastResponse (exec (.move 5 60 0) { State.reset with devVel := true }) = some ⟨.faulted, .code 0x05⟩ := by
  decide +kernel

/-- V-PL3: a late POLL pulses once. -/
theorem test_poll_late :
    quietState (exec (.poll 2000) moving) =
      some { moving with remaining := 99, nextDue := 8005 / 4, trace := [.reset, .step true, .step false] } := by
  decide +kernel

/-- V-PL4 and V-PL1: the last due POLL emits nothing; a POLL before its time changes nothing. -/
theorem test_poll_last_and_early :
    quietState (exec (.poll 10) lastStep) = some { lastStep with remaining := 0, nextDue := 45 / 4 } ∧
    quietState (exec (.poll 1001) moving) = some moving := by decide +kernel

/-- V-ST1 and V-VM2. -/
theorem test_stop :
    quietState (exec .stop moving) = some { moving with remaining := 0 } ∧
    quietState (exec .stop velocity) = some { moving with remaining := 0 } := by decide +kernel

/-- V-VM1. -/
theorem test_velocity_mode :
    quietState (exec .velocityMode moving) = some { moving with devVel := true } ∧
    (quietState (exec .velocityMode moving)).map State.mode = some .devVel := by decide +kernel

/-- V-ER3 as a frame row. -/
theorem test_read_request :
    lastResponse (exec (.readRequest 0 2 0xEA) State.reset) = some ⟨.ok, .frame [0x55, 0x00, 0x02, 0xEA]⟩ := by
  decide +kernel

/-- V-EW9 as a frame row. -/
theorem test_write_request :
    lastResponse (exec (.writeRequest 3 0x7F 0x12345678 0x62) State.reset) =
      some ⟨.ok, .frame [0x55, 0x03, 0xFF, 0x12, 0x34, 0x56, 0x78, 0x62]⟩ := by decide +kernel

/-- V-RB6's reply, and V-RB8's. -/
theorem test_reply :
    lastResponse (exec (.reply 0x55 0 2 0x80000000 0xC9) State.reset) = some ⟨.ok, .datum (-2147483648)⟩ ∧
    lastResponse (exec (.reply 0x55 0 2 7 0xEC) State.reset) = some ⟨.checksumMismatch, .none⟩ := by decide +kernel

/-- V-RB1 and V-RB13: the echo is not examined. -/
theorem test_readback :
    lastResponse (exec (.readback 0x550002EA 0x55 0 2 7 0xED) State.reset) = some ⟨.ok, .datum 7⟩ ∧
    lastResponse (exec (.readback 0 0x55 0 2 7 0xED) State.reset) = some ⟨.ok, .datum 7⟩ := by decide +kernel

/-- V-F3 and V-F7: an illegal op, and one behind a latched fault. -/
theorem test_illegal_op :
    nextState (step (given State.reset [.record (.command 0x15 [])])) =
      some { State.reset with fault := 0x01, responses := [⟨.faulted, .code 0x01⟩] } ∧
    nextState (step (given latched [.record (.command 0x20 [])])) =
      some { latched with responses := [⟨.faulted, .code 0x05⟩] } := by decide +kernel

/-- V-F5 and V-F6: refused. -/
theorem test_refused_by_a_latched_fault :
    quietState (exec .stop { moving with fault := 5 }) = some { moving with fault := 5 } ∧
    lastResponse (exec (.crc8 []) { State.reset with fault := 3 }) = some ⟨.faulted, .code 0x03⟩ := by decide +kernel

/-- V-F8: reset. -/
theorem test_reset :
    nextState (step (given { velocity with fault := 5 } [.reset])) =
      some { State.reset with trace := [.reset, .reset] } := by decide +kernel

/-- V-ST2 placed as the table's word: it is the first step after power-on. -/
theorem test_placed_word :
    lastResponse (step (State.reset.withFetchWord 8 0x13)) = some ⟨.ok, .none⟩ := by decide

/-! ### Witnesses: for each statement with hypotheses, values that meet them, clause by clause -/

theorem witness_EncodeInvertsDecode :
    (∃ i, decode defaultConfig (.command 0x11 [.i32 (-1), .u32 0, .rat 0]) = .ok i) ∧
    (∃ i, decode defaultConfig (.request [0x55, 0x03, 0x7F, 0xA1]) = .ok i) ∧
    (∃ i, decode defaultConfig (.request [0x55, 0x03, 0xFF, 0x12, 0x34, 0x56, 0x78, 0x62]) = .ok i) ∧
    (∃ i, decode defaultConfig (.received [0, 0, 0, 0, 0, 0, 0, 0]) = .ok i) ∧
    (∃ i, decode defaultConfig (.received [0, 0, 0, 0, 0, 0, 0, 0, 0, 0, 0, 0]) = .ok i) :=
  ⟨⟨_, rfl⟩, ⟨_, rfl⟩, ⟨_, rfl⟩, ⟨_, rfl⟩, ⟨_, rfl⟩⟩

theorem witness_OperandListsFollowTheTable :
    (operandKinds 0x02 = some [.u8, .u8] ∧ [Operand.u8 3, .u8 0x7F].map Operand.kind = [.u8, .u8]) ∧
    (operandKinds 0x13 = some [] ∧ [Operand.u8 0].map Operand.kind ≠ [] ∧
      (given State.reset [.record (.command 0x13 [.u8 0])]).inbox = .record (.command 0x13 [.u8 0]) :: []) := by
  decide

theorem witness_PseudoCommandsExpand :
    (List.replicate 8 (0 : Byte)).length = 8 ∧ (List.replicate 7 (0 : Byte)).length ≠ 8 ∧
    (List.replicate 9 (0 : Byte)).length ≠ 8 := by decide

theorem witness_StepRunsTheDecodedRecord :
    (given moving [.record (.command 0x13 []), .reset]).inbox = .record (.command 0x13 []) :: [.reset] ∧
    decode moving.cfg (.command 0x13 []) = .ok .stop := by decide

theorem witness_PlacedWordRuns :
    decode State.reset.cfg (recordOfWord State.reset.cfg 8 0x14) = .ok .velocityMode ∧
    decode State.reset.cfg (recordOfWord State.reset.cfg 32 0x550002EA) = .ok (.readRequest 0 2 0xEA) := by
  decide +kernel

theorem witness_IdleHoldsItsState : State.reset.inbox = [] ∧ velocity.inbox = [] := by decide

theorem witness_ResetInputClears :
    (given { velocity with fault := 5 } [.reset, .reset]).inbox = .reset :: [.reset] ∧
    (given latched [.reset]).fault ≠ 0 ∧ ∃ t, step (given latched [.reset]) = .next t ∧ t.fault = 0 :=
  ⟨by decide, by decide, _, rfl, by decide⟩

theorem witness_CommandsTakeEffectInOrder :
    ∃ t, issue [.setDivisor 8, .move 3 60 0, .poll (5 / 8)] { State.reset with inbox := [.reset] } = .next t ∧
      decide (t.remaining = 2 ∧ t.nextDue = 5 / 4) = true :=
  exists_of_nextWith (by decide +kernel)

theorem witness_StepStopsOnlyOutsideTheSpec :
    (∃ f, step (given moving [.resetDuring (.command 0x13 [])]) = .fault f) ∧
    (∃ f, step (given moving [.record (.command 0x13 [.u8 0])]) = .refused f) ∧
    (∃ f, step (given moving [.record (.request [0x55])]) = .refused f) ∧
    (∃ t, step (given moving [.record (.command 0x20 [])]) = .next t) :=
  ⟨⟨_, rfl⟩, ⟨_, rfl⟩, ⟨_, rfl⟩, ⟨_, rfl⟩⟩

theorem witness_ParametersNeverWritten : ∃ t, step (given lsbState [.record (.command 0x13 [])]) = .next t :=
  ⟨_, rfl⟩

theorem witness_LatchedFaultRefusesEveryCommand :
    latched.fault ≠ 0 ∧ { moving with fault := 1 }.fault ≠ 0 ∧
    (given latched [.record (.command 0x20 [.u8 1])]).inbox = .record (.command 0x20 [.u8 1]) :: [] ∧
    operandKinds 0x20 = none ∧ moving.fault = 0 := by decide

theorem witness_IllegalOpRaisesFault :
    moving.fault = 0 ∧
    ∀ op ∈ ([0x00, 0x06, 0x0F, 0x15, 0xFF] : List Byte),
      (given moving [.record (.command op [.u8 1])]).inbox = .record (.command op [.u8 1]) :: [] ∧
      (op.toNat = 0 ∨ (0x06 ≤ op.toNat ∧ op.toNat ≤ 0x0F) ∨ 0x15 ≤ op.toNat) := by decide

theorem witness_FaultEntryIsPrecise :
    State.reset.fault = 0 ∧
    (∃ t, exec (.move 1 60 0) State.reset = .next t ∧ t.fault ≠ 0) ∧
    (∃ t, step (given State.reset [.record (.command 0x20 [])]) = .next t ∧ t.fault ≠ 0) :=
  ⟨by decide, ⟨_, rfl, by decide⟩, ⟨_, rfl, by decide⟩⟩

/-- Each cause at the edge of its range, and its neighbour that raises nothing. -/
theorem witness_FaultCausesAreTheTables :
    State.reset.fault = 0 ∧
    (∃ t, exec (.encodeRead 4 0x80) State.reset = .next t ∧ t.fault = 2) ∧
    (∃ t, exec (.encodeRead 3 0x80) State.reset = .next t ∧ t.fault = 3) ∧
    (∃ t, exec (.encodeRead 3 0x7F) State.reset = .next t ∧ t.fault = 0) ∧
    (∃ t, exec (.encodeWrite 4 0x80 0) State.reset = .next t ∧ t.fault = 2) ∧
    (∃ t, exec (.encodeWrite 3 0x80 0) State.reset = .next t ∧ t.fault = 3) ∧
    (∃ t, exec (.checkFrame []) State.reset = .next t ∧ t.fault = 4) ∧
    (∃ t, exec (.move 1 1 0) State.reset = .next t ∧ t.fault = 5) ∧
    (∃ t, exec (.move 1 0 0) State.reset = .next t ∧ decide (t.fault = 0) = true) ∧
    (∃ t, step (given State.reset [.record (.command 0x15 [])]) = .next t ∧ t.fault = 1) ∧
    (∃ t, step (given State.reset [.record (.command 0x14 [])]) = .next t ∧ t.fault = 0) :=
  ⟨by decide, ⟨_, rfl, rfl⟩, ⟨_, rfl, rfl⟩, ⟨_, rfl, rfl⟩, ⟨_, rfl, rfl⟩, ⟨_, rfl, rfl⟩, ⟨_, rfl, rfl⟩, ⟨_, rfl, rfl⟩,
    exists_of_nextWith (by decide +kernel), ⟨_, rfl, rfl⟩, ⟨_, rfl, rfl⟩⟩

theorem witness_FaultStaysLatchedUntilReset :
    (given latched [.reset]).fault ≠ 0 ∧ (∃ t, step (given latched [.reset]) = .next t ∧ t.fault = 0) ∧
    (given latched [.record (.command 0x13 [])]).fault ≠ 0 ∧
    (∃ t, step (given latched [.record (.command 0x13 [])]) = .next t ∧ t.fault = 5) ∧
    ¬∃ rest, (given latched [.record (.command 0x13 [])]).inbox = .reset :: rest :=
  ⟨by decide, ⟨_, rfl, rfl⟩, by decide, ⟨_, rfl, rfl⟩, by simp [given]⟩

theorem witness_AllowedCommandRaisesNoFault :
    State.reset.fault = 0 ∧ allowedIn State.reset (.move 1 0 0) = true ∧ allowedIn ready (.move 1 1 0) = true ∧
    allowedIn State.reset (.move 1 1 0) = false ∧ allowedIn State.reset (.encodeRead 3 0x7F) = true := by decide

theorem witness_LegalCodecCommandCannotFail :
    State.reset.fault = 0 ∧
    ∀ i ∈ [.crc8 [], .encodeRead 3 0x7F, .encodeWrite 3 0x7F (-1), .checkFrame [0], .validateReadback [],
        .readRequest 3 0x7F 0, .writeRequest 3 0x7F 0 0, .reply 0 0 0 0 0, .readback 0 0 0 0 0 0],
      isCodec i = true ∧ i.wellFormed = true := by decide

/-- Each status of R175. -/
theorem witness_OneResponsePerCommand :
    lastResponse (exec .stop State.reset) = some ⟨.ok, .none⟩ ∧
    lastResponse (exec (.setDivisor 3) State.reset) = some ⟨.invalidConfig, .none⟩ ∧
    lastResponse (exec (.move 1 1 0) velocity) = some ⟨.modeBusy, .none⟩ ∧
    lastResponse (exec (.validateReadback []) State.reset) = some ⟨.shortReply, .none⟩ ∧
    lastResponse (exec (.readback 0 0 0 0 0 0) State.reset) = some ⟨.shortReply, .none⟩ ∧
    lastResponse (exec (.checkFrame [1]) State.reset) = some ⟨.checksumMismatch, .bit false⟩ ∧
    lastResponse (exec (.reply 0 0 0 0 1) State.reset) = some ⟨.checksumMismatch, .none⟩ ∧
    lastResponse (exec .stop latched) = some ⟨.faulted, .code 5⟩ := by decide +kernel

theorem witness_OutputsAreNotRead :
    ∃ t, exec (.poll 2000) moving = .next t ∧ decide (t.trace = [.reset, .step true, .step false]) = true :=
  exists_of_nextWith (by decide +kernel)

theorem witness_CrcIsLinear : ([0x55, 0x00] : List Byte).length = ([0x01, 0xFF] : List Byte).length := by decide

theorem witness_SingleBitErrorsAreDetected :
    State.reset.fault = 0 ∧ lsbState.fault = 0 ∧
    ([0x55, 0x00, 0xA2, 0xFF, 0xFF, 0xFF, 0xFF] : List Byte).length = 7 ∧ 0 < 8 ∧ 7 < 8 := by decide

theorem witness_Crc8Responds : State.reset.fault = 0 ∧ lsbState.fault = 0 ∧ moving.fault = 0 := by decide

/-- Both encode commands: the three clauses, at the edges of their ranges. -/
theorem witness_EncodeReadBuildsItsFrame :
    moving.fault = 0 ∧ 4 ≤ (4 : Byte).toNat ∧ 4 ≤ (0xFF : Byte).toNat ∧
    ((3 : Byte).toNat < 4 ∧ 0x80 ≤ (0x80 : Byte).toNat) ∧ ((3 : Byte).toNat < 4 ∧ (0x7F : Byte).toNat < 0x80) := by
  decide

theorem witness_EncodeWriteBuildsItsFrame :
    State.reset.fault = 0 ∧ 4 ≤ (4 : Byte).toNat ∧
    ((0 : Byte).toNat < 4 ∧ 0x80 ≤ (0xFF : Byte).toNat) ∧ ((0 : Byte).toNat < 4 ∧ (0 : Byte).toNat < 0x80) := by
  decide

theorem witness_EncodedFramesPassTheirCheck :
    lsbState.fault = 0 ∧ (3 : Byte).toNat < 4 ∧ (0x7F : Byte).toNat < 0x80 := by decide

theorem witness_CheckFrameComparesTheTrailingByte : State.reset.fault = 0 ∧ moving.fault = 0 := by decide

/-- The lengths about 12; the three verdicts are in `test_validate_readback`. -/
theorem witness_ReadbackVerdict :
    State.reset.fault = 0 ∧ (List.replicate 11 (0 : Byte)).length ≠ 12 ∧ (List.replicate 13 (0 : Byte)).length ≠ 12 := by
  decide

theorem witness_CodecNeitherReadsNorWritesMotion :
    isCodec (.encodeRead 4 0) = true ∧ (∃ t, exec (.encodeRead 4 0) State.reset = .next t ∧ t.fault = 2) ∧
    velocity.fault = State.reset.fault ∧ velocity.cfg = State.reset.cfg :=
  ⟨by decide, ⟨_, rfl, rfl⟩, by decide, by decide⟩

theorem witness_CodecIsIdempotent :
    isCodec (.checkFrame []) = true ∧ ∃ t, exec (.checkFrame []) State.reset = .next t ∧ t.fault = 4 :=
  ⟨by decide, _, rfl, rfl⟩

theorem witness_ReadRequestRowBuildsItsFrame : State.reset.fault = 0 := by decide

theorem witness_WriteRequestRowBuildsItsFrame : lsbState.fault = 0 := by decide

theorem witness_ReplyRowChecksAndExtracts : velocity.fault = 0 := by decide

theorem witness_ReadbackRowIsJudged :
    State.reset.fault = 0 ∧ (1 : U32) ≠ 0 ∧
    encode State.reset.cfg (.readback 1 0 0 0 0 0) = .received [0, 0, 0, 1, 0, 0, 0, 0, 0, 0, 0, 0] := by decide

theorem witness_DelayIsExact : (1 : U32) ≠ 0 ∧ (0xFFFFFFFF : U32) ≠ 0 ∧ (1 : Nat) ≠ 0 ∧ (256 : Nat) ≠ 0 := by decide

/-- Legal divisors 1 and 256; the values beside the legal ones. -/
theorem witness_SetDivisorCommand :
    moving.fault = 0 ∧ 0 ≤ 8 ∧ 8 ≤ 8 ∧
    (∀ k : Nat, k ≤ 8 → (0 : U32).toNat ≠ 2 ^ k) ∧ (∀ k : Nat, k ≤ 8 → (255 : U32).toNat ≠ 2 ^ k) ∧
    (∀ k : Nat, k ≤ 8 → (512 : U32).toNat ≠ 2 ^ k) := by decide

/-- The three clauses: no divisor; device velocity, with and without an RPM; a move carried out, with and without. -/
theorem witness_MoveCommand :
    (State.reset.fault = 0 ∧ (1 : U32) ≠ 0 ∧ State.reset.mdiv = 0) ∧
    (velocity.fault = 0 ∧ velocity.mdiv ≠ 0 ∧ velocity.devVel = true) ∧
    (ready.fault = 0 ∧ ready.mdiv ≠ 0 ∧ ready.devVel = false) ∧
    ((0 : U32) = 0 ∧ State.reset.devVel = false) ∧
    ((0 : U32) = 0 ∧ { State.reset with devVel := true }.devVel = true) := by decide

/-- Each reason to do nothing, with 1001 before the due time 1001.25, and a due POLL at that time itself. -/
theorem witness_PollCommand :
    moving.fault = 0 ∧ velocity.devVel = true ∧ ready.remaining = 0 ∧ { moving with delay := 0 }.delay = 0 ∧
    1001 < moving.nextDue ∧
    (moving.devVel = false ∧ moving.remaining ≠ 0 ∧ moving.delay ≠ 0 ∧ moving.nextDue ≤ 4005 / 4) ∧
    (lastStep.remaining = 1 ∧ lastStep.nextDue ≤ 10) := by decide +kernel

theorem witness_StopCommand : moving.fault = 0 ∧ velocity.fault = 0 := by decide

theorem witness_VelocityModeCommand :
    moving.fault = 0 ∧ moving.mdiv ≠ 0 ∧ State.reset.fault = 0 ∧ (0 : U32) = 0 := by decide

theorem witness_StopVelocityAndDivisorAreIdempotent :
    (∃ t, exec .stop moving = .next t ∧ t.remaining = 0) ∧
    (∃ t, exec .velocityMode moving = .next t ∧ t.devVel = true) ∧
    (∃ t, exec (.setDivisor 16) moving = .next t ∧ decide (t.delay = 5 / 8) = true) :=
  ⟨⟨_, rfl, rfl⟩, ⟨_, rfl, rfl⟩, exists_of_nextWith (by decide +kernel)⟩

theorem witness_MoveEmitsItsPulses :
    ready.fault = 0 ∧ ready.devVel = false ∧ ready.mdiv ≠ 0 ∧ (-100 : I32) ≠ 0 ∧ (30 : U32) ≠ 0 := by decide

/-- A move of 3 steps (L3-1): the second due POLL gives its third and last pulse and leaves 1 remaining, the third due
POLL, at 15/8, gives none and leaves 0, and a POLL after it gives none. -/
theorem witness_MoveEmitsItsPulses_last_step :
    (dueCount (5 / 8) (5 / 8) [1 / 2, 5 / 8, 5 / 4] = 2 ∧
      (nextState (issue (.move 3 60 0 :: [1 / 2, 5 / 8, 5 / 4].map .poll) ready)).map
        (fun s => (pulseCount s.trace, s.remaining)) = some (3, 1)) ∧
    (dueCount (5 / 8) (5 / 8) [1 / 2, 5 / 8, 5 / 4, 15 / 8] = 3 ∧
      (nextState (issue (.move 3 60 0 :: [1 / 2, 5 / 8, 5 / 4, 15 / 8].map .poll) ready)).map
        (fun s => (pulseCount s.trace, s.remaining)) = some (3, 0)) ∧
    (dueCount (5 / 8) (5 / 8) [1 / 2, 5 / 8, 5 / 4, 15 / 8, 5 / 2] = 4 ∧
      (nextState (issue (.move 3 60 0 :: [1 / 2, 5 / 8, 5 / 4, 15 / 8, 5 / 2].map .poll) ready)).map
        (fun s => (pulseCount s.trace, s.remaining)) = some (3, 0)) := by decide +kernel

theorem witness_OneShotAndEmptyMoves :
    State.reset.fault = 0 ∧ State.reset.devVel = false ∧ (50 : I32) ≠ 0 ∧ (0 : U32) = 0 ∧
    ready.fault = 0 ∧ ready.devVel = false ∧ ready.mdiv ≠ 0 := by decide

/-- Each arm of the mode's rule: a move refused, one of no steps, one of a step; the last due POLL; STOP and
VELOCITY_MODE; any other instruction; reset. -/
theorem witness_ModeTransitions :
    (nextState (exec (.move 1 1 0) State.reset)).map State.mode = some .idle ∧
    (nextState (exec (.move 1 1 0) velocity)).map State.mode = some .devVel ∧
    (nextState (exec (.move 0 1 0) moving)).map State.mode = some .idle ∧
    (nextState (exec (.move 1 1 0) ready)).map State.mode = some .moving ∧
    (nextState (exec (.poll 10) lastStep)).map State.mode = some .idle ∧
    (nextState (exec (.poll 9) lastStep)).map State.mode = some .moving ∧
    (nextState (exec .stop velocity)).map State.mode = some .idle ∧
    (nextState (exec .velocityMode moving)).map State.mode = some .devVel ∧
    (nextState (exec (.crc8 []) moving)).map State.mode = some .moving ∧
    (nextState (step (given moving [.reset]))).map State.mode = some .idle := by decide +kernel

theorem witness_DirChangesOnlyInMoveAndReset :
    (∃ t, exec (.move 1 1 0) ready = .next t ∧
      decide (t.trace = [.reset, .dir true, .step true, .step false]) = true) ∧
    (∃ t, exec (.move 1 1 0) State.reset = .next t ∧ decide (t.trace = [.reset]) = true) ∧
    (∃ t, exec (.poll 2000) moving = .next t ∧ decide (t.trace = [.reset, .step true, .step false]) = true) ∧
    (∃ t, exec .stop moving = .next t ∧ decide (t.trace = [.reset]) = true) ∧
    (∃ t, step (given { moving with dir := true } [.reset]) = .next t ∧ decide (t.dir = false) = true) :=
  ⟨exists_of_nextWith (by decide +kernel), exists_of_nextWith (by decide +kernel),
    exists_of_nextWith (by decide +kernel), exists_of_nextWith (by decide +kernel),
    exists_of_nextWith (by decide +kernel)⟩

theorem witness_RemainingGrowsOnlyByMove :
    (∃ t, exec (.move (-2147483648) 0 0) State.reset = .next t ∧ decide (t.remaining.toNat = 2 ^ 31) = true) ∧
    (∃ t, exec (.poll 2000) moving = .next t ∧ decide (t.remaining.toNat = 99) = true) :=
  ⟨exists_of_nextWith (by decide +kernel), exists_of_nextWith (by decide +kernel)⟩

theorem witness_AtMostOnePulsePerCommand :
    (∃ t, exec (.poll 2000) moving = .next t ∧ decide (pulseCount t.trace = 1) = true) ∧
    (∃ t, exec .stop moving = .next t ∧ decide (pulseCount t.trace = 0) = true) :=
  ⟨exists_of_nextWith (by decide +kernel), exists_of_nextWith (by decide +kernel)⟩

theorem witness_StepKeepsRegsInv :
    (given moving [.record (.command 0x12 [.rat 2000])]).RegsInv ∧
    ∃ t, step (given moving [.record (.command 0x12 [.rat 2000])]) = .next t ∧
      decide (t.nextDue = 8005 / 4) = true :=
  ⟨by decide +kernel, exists_of_nextWith (by decide +kernel)⟩

theorem witness_StepKeepsTraceInv :
    (given moving [.record (.command 0x11 [.i32 5, .u32 30, .rat 0])]).TraceInv ∧
    ∃ t, step (given moving [.record (.command 0x11 [.i32 5, .u32 30, .rat 0])]) = .next t ∧
      decide (t.trace = [.reset, .dir true, .step true, .step false]) = true :=
  ⟨by decide +kernel, exists_of_nextWith (by decide +kernel)⟩

end Sys2Proof.Tests
end

namespace Sys2Proof.Machine

/-! ### One step, by the next input (R7, R8, R60, R200) -/

/-- With nothing sent a step holds the state. -/
theorem step_of_inbox_nil {s : State} (h : s.inbox = []) : step s = .next s := by
  simp only [step, takeInput, h]

/-- A record at the front of the inbox is taken from it and issued. -/
theorem step_of_inbox_record {s : State} {r : Record} {rest : List Input} (h : s.inbox = .record r :: rest) :
    step s = issueRecord r { s with inbox := rest } := by
  simp only [step, takeInput, h]

/-- A reset at the front of the inbox is taken from it and applied. -/
theorem step_of_inbox_reset {s : State} {rest : List Input} (h : s.inbox = .reset :: rest) :
    step s = .next { s.applyReset with inbox := rest } := by
  simp only [step, takeInput, h]

/-- A reset asserted during a command stops the model (log entry 7). -/
theorem step_of_inbox_resetDuring {s : State} {r : Record} {rest : List Input}
    (h : s.inbox = .resetDuring r :: rest) : step s = .fault .resetDuringCommand := by
  simp only [step, takeInput, h]

/-- A record that decodes to an instruction runs that instruction. -/
theorem issueRecord_of_decode_ok {s : State} {r : Record} {i : Instr} (h : decode s.cfg r = .ok i) :
    issueRecord r s = exec i s := by
  simp only [issueRecord, h]

/-- A record whose op byte is illegal runs as an illegal command (R73). -/
theorem issueRecord_of_illegalOp {s : State} {r : Record} {op : Byte} (h : decode s.cfg r = .error (.illegalOp op)) :
    issueRecord r s = illegalCommand s := by
  simp only [issueRecord, h]

/-- A record with a legal op byte and other operands than R72's is refused by name (log entry 8). -/
theorem issueRecord_of_operandMismatch {s : State} {r : Record} {op : Byte}
    (h : decode s.cfg r = .error (.operandMismatch op)) : issueRecord r s = .refused (.operandMismatch op) := by
  simp only [issueRecord, h]

/-- Bytes of no layout are refused by name (log entry 8). -/
theorem issueRecord_of_notAFrame {s : State} {r : Record} (h : decode s.cfg r = .error .notAFrame) :
    issueRecord r s = .refused .notAFrame := by
  simp only [issueRecord, h]

/-- Settles O7: a step on a record issues it, and a record that decodes runs its instruction. -/
theorem stepRunsTheDecodedRecord : Obligations.StepRunsTheDecodedRecord := by
  intro s r rest i hinbox hdecode
  rw [step_of_inbox_record hinbox]
  exact issueRecord_of_decode_ok hdecode

/-! ### What a next state is guaranteed to satisfy

Postconditions of answers, so that a fact about every next state is proved along the operations a meaning is made of. -/

/-- If the answer is a next state, it satisfies `P`; a stop of the model satisfies every `P`. -/
def Ensures (a : Answer) (P : State → Prop) : Prop :=
  ∀ t : State, a = .next t → P t

@[simp] theorem ensures_next {t : State} {P : State → Prop} : Ensures (.next t) P ↔ P t :=
  ⟨fun h => h t rfl, fun h _ ht => Host.Outcome.next.inj ht ▸ h⟩

@[simp] theorem ensures_fault (r : Fault) (P : State → Prop) : Ensures (.fault r) P :=
  fun _ h => nomatch h

@[simp] theorem ensures_refused (r : Refusal) (P : State → Prop) : Ensures (.refused r) P :=
  fun _ h => nomatch h

/-- A conditional answer ensures what each of its branches ensures under its condition. -/
theorem ensures_ite {c : Prop} [Decidable c] {a b : Answer} {P : State → Prop}
    (ha : c → Ensures a P) (hb : ¬c → Ensures b P) : Ensures (if c then a else b) P := by
  split
  · exact ha ‹_›
  · exact hb ‹_›

/-- The prologue ensures what both the refusal of a latched fault and the command itself ensure (R173). -/
theorem ensures_prologue {s : State} {body : State → Answer} {P : State → Prop}
    (hlatched : s.fault ≠ 0 → P (s.respond .faulted (.code s.fault)))
    (hbody : s.fault = 0 → Ensures (body s) P) : Ensures (prologue s body) P := by
  intro t h
  obtain ⟨hf, rfl⟩ | ⟨hf, hb⟩ := prologue_next h
  · exact hlatched hf
  · exact hbody hf t hb

/-- The address checks ensure what both their faults and the rest of the command ensure (R176). -/
theorem ensures_withLegalTarget {addr reg : Byte} {s : State} {body : State → Answer} {P : State → Prop}
    (haddr : P (s.raise .badDriverAddr)) (hreg : P (s.raise .badRegister)) (hbody : Ensures (body s) P) :
    Ensures (withLegalTarget addr reg s body) P := by
  obtain ⟨-, h⟩ | ⟨-, -, h⟩ | ⟨-, -, h⟩ := withLegalTarget_cases addr reg s body <;> rw [h]
  · exact ensures_next.2 haddr
  · exact ensures_next.2 hreg
  · exact hbody

/-! ### The parameters are never written (R9) -/

/-- The answer leaves the parameters as they are in `s`. -/
abbrev KeepsCfg (s : State) (a : Answer) : Prop :=
  Ensures a fun t => t.cfg = s.cfg

@[simp] theorem keepsCfg_next {s t : State} : KeepsCfg s (.next t) ↔ t.cfg = s.cfg :=
  ensures_next

/-- A command keeps the parameters when it does so past its prologue. -/
theorem prologue_keepsCfg {s : State} {body : State → Answer} (h : KeepsCfg s (body s)) :
    KeepsCfg s (prologue s body) :=
  ensures_prologue (fun _ => s.respond_cfg _ _) (fun _ => h)

theorem buildRead_keepsCfg (addr reg : Byte) (s : State) : KeepsCfg s (buildRead addr reg s) :=
  ensures_withLegalTarget (s.raise_cfg _) (s.raise_cfg _) (keepsCfg_next.2 (s.respond_cfg _ _))

theorem buildWrite_keepsCfg (addr reg : Byte) (value : Int) (s : State) :
    KeepsCfg s (buildWrite addr reg value s) :=
  ensures_withLegalTarget (s.raise_cfg _) (s.raise_cfg _) (keepsCfg_next.2 (s.respond_cfg _ _))

theorem judgeReadback_keepsCfg (bs : List Byte) (s : State) : KeepsCfg s (judgeReadback bs s) :=
  keepsCfg_next.2 (s.respond_cfg _ _)

theorem illegalCommand_keepsCfg (s : State) : KeepsCfg s (illegalCommand s) :=
  prologue_keepsCfg (keepsCfg_next.2 (s.raise_cfg _))

@[simp] theorem State.duePoll_cfg (s : State) (now : Rat) : (s.duePoll now).cfg = s.cfg := by
  by_cases h : s.remaining - 1 = 0
  · rw [duePoll_last now h]
  · rw [duePoll_more now h]

theorem execCrc8_keepsCfg (bs : List Byte) (s : State) : KeepsCfg s (execCrc8 bs s) :=
  prologue_keepsCfg (keepsCfg_next.2 rfl)

theorem execStop_keepsCfg (s : State) : KeepsCfg s (execStop s) :=
  prologue_keepsCfg (keepsCfg_next.2 rfl)

theorem execVelocityMode_keepsCfg (s : State) : KeepsCfg s (execVelocityMode s) :=
  prologue_keepsCfg (keepsCfg_next.2 rfl)

theorem execCheckFrame_keepsCfg (bs : List Byte) (s : State) : KeepsCfg s (execCheckFrame bs s) := by
  refine prologue_keepsCfg (ensures_ite (fun _ => ?_) fun _ => ensures_ite (fun _ => ?_) fun _ => ?_) <;> simp

theorem execReply_keepsCfg (sync addr reg : Byte) (data : U32) (crc : Byte) (s : State) :
    KeepsCfg s (execReply sync addr reg data crc s) := by
  refine prologue_keepsCfg (ensures_ite (fun _ => ?_) fun _ => ?_) <;> simp

theorem execSetDivisor_keepsCfg (d : U32) (s : State) : KeepsCfg s (execSetDivisor d s) := by
  refine prologue_keepsCfg (ensures_ite (fun _ => ?_) fun _ => ?_) <;> simp

/-- MOVE: its fault, its refusal in DevVel, and the writes of a move carried out, with or without its first pulse. -/
theorem execMove_keepsCfg (steps : I32) (rpm : U32) (now : Rat) (s : State) :
    KeepsCfg s (execMove steps rpm now s) := by
  refine prologue_keepsCfg (ensures_ite (fun _ => ?_) fun _ => ensures_ite (fun _ => ?_) fun _ => ?_)
  · simp
  · simp
  · simp only [keepsCfg_next, State.respond_cfg, State.schedule_cfg]
    split <;> simp

/-- POLL: each of its no-ops, and the due POLL. -/
theorem execPoll_keepsCfg (now : Rat) (s : State) : KeepsCfg s (execPoll now s) := by
  refine prologue_keepsCfg (ensures_ite (fun _ => ?_) fun _ => ensures_ite (fun _ => ?_) fun _ =>
    ensures_ite (fun _ => ?_) fun _ => ensures_ite (fun _ => ?_) fun _ => ?_) <;> simp

/-- No instruction writes the parameters, on any of its paths. -/
theorem exec_keepsCfg (i : Instr) (s : State) : KeepsCfg s (exec i s) := by
  cases i with
  | crc8 bs => exact execCrc8_keepsCfg _ s
  | encodeRead addr reg => exact prologue_keepsCfg (buildRead_keepsCfg _ _ s)
  | encodeWrite addr reg value => exact prologue_keepsCfg (buildWrite_keepsCfg _ _ _ s)
  | checkFrame bs => exact execCheckFrame_keepsCfg _ s
  | validateReadback bs => exact prologue_keepsCfg (judgeReadback_keepsCfg _ s)
  | setDivisor d => exact execSetDivisor_keepsCfg _ s
  | move steps rpm now => exact execMove_keepsCfg _ _ _ s
  | poll now => exact execPoll_keepsCfg _ s
  | stop => exact execStop_keepsCfg s
  | velocityMode => exact execVelocityMode_keepsCfg s
  | readRequest addr reg crc => exact prologue_keepsCfg (buildRead_keepsCfg _ _ s)
  | writeRequest addr reg value crc => exact prologue_keepsCfg (buildWrite_keepsCfg _ _ _ s)
  | reply sync addr reg data crc => exact execReply_keepsCfg _ _ _ _ _ s
  | readback echo sync addr reg data crc => exact prologue_keepsCfg (judgeReadback_keepsCfg _ s)

/-- Issuing a record keeps the parameters, whatever the decoder makes of it. -/
theorem issueRecord_keepsCfg (r : Record) (s : State) : KeepsCfg s (issueRecord r s) := by
  match h : decode s.cfg r with
  | .ok i => exact issueRecord_of_decode_ok h ▸ exec_keepsCfg i s
  | .error (.illegalOp _) => exact issueRecord_of_illegalOp h ▸ illegalCommand_keepsCfg s
  | .error (.operandMismatch _) => exact issueRecord_of_operandMismatch h ▸ ensures_refused _ _
  | .error .notAFrame => exact issueRecord_of_notAFrame h ▸ ensures_refused _ _

/-- A step keeps the parameters, whatever input it takes. -/
theorem step_keepsCfg (s : State) : KeepsCfg s (step s) := by
  match h : s.inbox with
  | [] => exact step_of_inbox_nil h ▸ keepsCfg_next.2 rfl
  | .record r :: rest => exact step_of_inbox_record h ▸ issueRecord_keepsCfg r { s with inbox := rest }
  | .reset :: rest => exact step_of_inbox_reset h ▸ keepsCfg_next.2 s.applyReset_cfg
  | .resetDuring _ :: _ => exact step_of_inbox_resetDuring h ▸ ensures_fault _ _

/-- Settles O15: every input is taken by an operation that keeps the parameters. -/
theorem parametersNeverWritten : Obligations.ParametersNeverWritten :=
  step_keepsCfg

end Sys2Proof.Machine

namespace Sys2Proof.Machine

/-! ### What a command can do

Each command changes the state in one of seven ways and then returns its response. -/

/-- The line events of one pulse, unless `p`. -/
def pulseUnless (p : Prop) [Decidable p] : List LineEvent :=
  if p then [] else pulses 1

theorem wholePulses_pulseUnless (p : Prop) [Decidable p] : wholePulses (pulseUnless p) = true := by
  unfold pulseUnless
  split <;> rfl

/-- A pulse leaves STEP low and DIR as it is. -/
theorem levels_pulseUnless (p : Prop) [Decidable p] (dir step : Bool) :
    (pulseUnless p).foldl levelsAfter (dir, step) = (dir, if p then step else false) := by
  unfold pulseUnless
  split <;> rfl

/-- A MOVE carried out, before its response (R135): DIR, the first pulse of a move that has steps, the registers. -/
def State.startMove (s : State) (steps : I32) (rpm : U32) (now : Rat) : State :=
  { s with
    remaining := absSteps steps
    rpm := rpm
    delay := moveDelay rpm s.mdiv
    nextDue := if rpm = 0 then 0 else now + moveDelay rpm s.mdiv
    dir := moveDir steps (Config.freeDir s.draws)
    step := if steps = 0 then s.step else false
    trace := s.trace ++ .dir (moveDir steps (Config.freeDir s.draws)) :: pulseUnless (steps = 0)
    draws := s.draws + 1 }

/-- Past its fault and its refusal in DevVel, a MOVE is carried out. -/
theorem execMove_carriedOut {steps : I32} {rpm : U32} {s : State} (now : Rat) (hfault : s.fault = 0)
    (hinit : ¬(rpm ≠ 0 ∧ s.mdiv = 0)) (hmode : ¬s.devVel = true) :
    execMove steps rpm now s = .next ((s.startMove steps rpm now).respond .ok .none) := by
  simp only [execMove, prologue_healthy hfault, if_neg hinit, if_neg hmode, State.startMove]
  by_cases hsteps : steps = 0
  · simp only [pulseUnless, if_pos hsteps]
    rfl
  · simp only [pulseUnless, if_neg hsteps, pulses, State.pulse, State.driveStep, State.driveDir, State.schedule,
      State.loadMove, State.countDraw, List.append_assoc, List.cons_append, List.nil_append]

/-- A due POLL on both of its paths (R136): the pulse goes with a count that has not run out. -/
theorem duePoll_eq (s : State) (now : Rat) :
    s.duePoll now =
      { s with
        remaining := s.remaining - 1
        nextDue := now + s.delay
        step := if s.remaining - 1 = 0 then s.step else false
        trace := s.trace ++ pulseUnless (s.remaining - 1 = 0) } := by
  by_cases h : s.remaining - 1 = 0
  · simp only [duePoll_last now h, pulseUnless, if_pos h, List.append_nil]
  · simp only [duePoll_more now h, pulseUnless, if_neg h, pulses]

@[simp] theorem State.duePoll_fault (s : State) (now : Rat) : (s.duePoll now).fault = s.fault := by
  rw [duePoll_eq]

/-- What a command does to the state before it responds. -/
inductive Change where
  | keep
  | latch (c : FaultCode)
  | loadDivisor (d : Nat)
  | startMove (steps : I32) (rpm : U32) (now : Rat)
  | duePoll (now : Rat)
  | halt
  | enterDevVel

/-- The state after a change. -/
def Change.apply : Change → State → State
  | .keep, s => s
  | .latch c, s => { s with fault := c.code }
  | .loadDivisor d, s => s.loadDivisor d
  | .startMove steps rpm now, s => s.startMove steps rpm now
  | .duePoll now, s => s.duePoll now
  | .halt, s => s.halt
  | .enterDevVel, s => s.enterDevVel

/-- The line events of a change made in `s`. -/
def Change.events : Change → State → List LineEvent
  | .startMove steps _ _, s =>
    .dir (moveDir steps (Config.freeDir s.draws)) :: pulseUnless (steps = 0)
  | .duePoll _, s => pulseUnless (s.remaining - 1 = 0)
  | _, _ => []

/-- `s` with other outputs. -/
def State.withOutputs (s : State) (trace : List LineEvent) (responses : List Response) : State :=
  { s with trace := trace, responses := responses }

/-- A change reads no output: its events follow whatever trace stands there, and every other field comes
out the same. -/
theorem Change.apply_withOutputs (c : Change) (s : State) (trace : List LineEvent) (responses : List Response) :
    c.apply (s.withOutputs trace responses) = (c.apply s).withOutputs (trace ++ c.events s) responses := by
  cases c with
  | startMove steps rpm now => rfl
  | duePoll now =>
    simp only [Change.apply, duePoll_eq]
    rfl
  | _ =>
    simp only [Change.events, List.append_nil]
    rfl

theorem Change.apply_trace (c : Change) (s : State) : (c.apply s).trace = s.trace ++ c.events s :=
  congrArg (·.trace) (c.apply_withOutputs s s.trace s.responses)

theorem Change.apply_responses (c : Change) (s : State) : (c.apply s).responses = s.responses :=
  congrArg (·.responses) (c.apply_withOutputs s s.trace s.responses)

/-- The statuses that R175 gives each instruction besides FAULTED. -/
inductive Returns : Instr → Status → Prop
  | ok (i : Instr) : Returns i .ok
  | setDivisor (d : U32) : Returns (.setDivisor d) .invalidConfig
  | move (steps : I32) (rpm : U32) (now : Rat) : Returns (.move steps rpm now) .modeBusy
  | checkFrame (bs : List Byte) : Returns (.checkFrame bs) .checksumMismatch
  | reply (sync addr reg : Byte) (data : U32) (crc : Byte) :
    Returns (.reply sync addr reg data crc) .checksumMismatch
  | shortValidate (bs : List Byte) : Returns (.validateReadback bs) .shortReply
  | validate (bs : List Byte) : Returns (.validateReadback bs) .checksumMismatch
  | shortReadback (echo : U32) (sync addr reg : Byte) (data : U32) (crc : Byte) :
    Returns (.readback echo sync addr reg data crc) .shortReply
  | readback (echo : U32) (sync addr reg : Byte) (data : U32) (crc : Byte) :
    Returns (.readback echo sync addr reg data crc) .checksumMismatch

/-- The changes and responses that an instruction (`none` for a command with an illegal op) may come to in `s`. The
changes that write the step-pulse registers have the guards under which their commands make them (R134 to R138). -/
inductive Does : Option Instr → State → Change → Response → Prop
  | refused {i : Option Instr} {s : State} : s.fault ≠ 0 → Does i s .keep ⟨.faulted, .code s.fault⟩
  | raised {i : Option Instr} {s : State} (c : FaultCode) :
    s.fault = 0 → Does i s (.latch c) ⟨.faulted, .code c.code⟩
  | answered {i : Instr} {s : State} {st : Status} (r : Result) :
    s.fault = 0 → Returns i st → Does (some i) s .keep ⟨st, r⟩
  | setDivisor {d : U32} {s : State} : s.fault = 0 → legalDiv d.toNat = true →
    Does (some (.setDivisor d)) s (.loadDivisor d.toNat) ⟨.ok, .mres (mres d.toNat)⟩
  | move {steps : I32} {rpm : U32} {now : Rat} {s : State} : s.fault = 0 →
    ¬(rpm ≠ 0 ∧ s.mdiv = 0) → ¬s.devVel = true →
    Does (some (.move steps rpm now)) s (.startMove steps rpm now) ⟨.ok, .none⟩
  | poll {now : Rat} {s : State} : s.fault = 0 →
    ¬s.devVel = true → s.remaining ≠ 0 → s.delay ≠ 0 → s.nextDue ≤ now →
    Does (some (.poll now)) s (.duePoll now) ⟨.ok, .none⟩
  | stop {s : State} : s.fault = 0 → Does (some .stop) s .halt ⟨.ok, .none⟩
  | velocityMode {s : State} : s.fault = 0 → Does (some .velocityMode) s .enterDevVel ⟨.ok, .none⟩

/-- In `s`, `meaning` answers a change and a response that `i` may come to, the same ones whatever the outputs hold. -/
def Performs (i : Option Instr) (meaning : State → Answer) (s : State) : Prop :=
  ∃ c r, Does i s c r ∧ ∀ trace responses, meaning (s.withOutputs trace responses) =
    .next ((c.apply (s.withOutputs trace responses)).respond r.status r.result)

/-- The prologue adds the refusal of a latched fault (R173). -/
theorem performs_prologue {i : Option Instr} {body : State → Answer} {s : State}
    (hbody : s.fault = 0 → Performs i body s) : Performs i (fun s => prologue s body) s := by
  by_cases hf : s.fault = 0
  · obtain ⟨c, r, hdoes, hanswer⟩ := hbody hf
    exact ⟨c, r, hdoes, fun tr rs =>
      (prologue_healthy (s := s.withOutputs tr rs) hf body).trans (hanswer tr rs)⟩
  · exact ⟨.keep, _, .refused hf, fun tr rs => prologue_latched (s := s.withOutputs tr rs) hf body⟩

/-- The address checks add their two faults (R176). -/
theorem performs_withLegalTarget {addr reg : Byte} {i : Instr} {s : State} {body : State → Answer} (hf : s.fault = 0)
    (hbody : Performs (some i) body s) : Performs (some i) (fun s => withLegalTarget addr reg s body) s := by
  by_cases ha : legalAddr addr = false
  · exact ⟨.latch .badDriverAddr, _, .raised _ hf, fun _ _ => if_pos ha⟩
  by_cases hr : legalReg reg = false
  · exact ⟨.latch .badRegister, _, .raised _ hf, fun _ _ => (if_neg ha).trans (if_pos hr)⟩
  obtain ⟨c, r, hdoes, hanswer⟩ := hbody
  exact ⟨c, r, hdoes, fun tr rs => (if_neg ha).trans ((if_neg hr).trans (hanswer tr rs))⟩

/-- ENCODE_READ and READ_REQUEST, past the prologue (R104). -/
theorem performs_buildRead (addr reg : Byte) (i : Instr) {s : State} (hf : s.fault = 0) :
    Performs (some i) (buildRead addr reg) s :=
  performs_withLegalTarget hf ⟨.keep, ⟨.ok, .frame (readFrame s.cfg addr reg)⟩,
    .answered _ hf (.ok i), fun _ _ => rfl⟩

/-- ENCODE_WRITE and WRITE_REQUEST, past the prologue (R105). -/
theorem performs_buildWrite (addr reg : Byte) (value : Int) (i : Instr) {s : State} (hf : s.fault = 0) :
    Performs (some i) (buildWrite addr reg value) s :=
  performs_withLegalTarget hf ⟨.keep, ⟨.ok, .frame (writeFrame s.cfg addr reg (BitVec.ofInt 32 value))⟩,
    .answered _ hf (.ok i), fun _ _ => rfl⟩

/-- VALIDATE_READBACK and READBACK, past the prologue, for an instruction with R107's statuses. -/
theorem performs_judgeReadback (bs : List Byte) {i : Instr} {s : State} (hf : s.fault = 0)
    (hshort : Returns i .shortReply) (hsum : Returns i .checksumMismatch) :
    Performs (some i) (judgeReadback bs) s := by
  have hstatus : Returns i (readbackResponse s.cfg.crcOrder bs).status := by
    obtain h | h | ⟨v, h⟩ := readbackResponse_cases s.cfg.crcOrder bs <;> rw [h]
    · exact hshort
    · exact hsum
    · exact .ok i
  exact ⟨.keep, readbackResponse s.cfg.crcOrder bs, .answered _ hf hstatus, fun _ _ => rfl⟩

theorem execCrc8_performs (bs : List Byte) (s : State) : Performs (some (.crc8 bs)) (execCrc8 bs) s :=
  performs_prologue fun hf => ⟨.keep, ⟨.ok, .crc (crc8 s.cfg.crcOrder bs)⟩,
    .answered _ hf (.ok _), fun _ _ => rfl⟩

/-- CHECK_FRAME: its fault and its two verdicts (R106). -/
theorem execCheckFrame_performs (bs : List Byte) (s : State) :
    Performs (some (.checkFrame bs)) (execCheckFrame bs) s := by
  refine performs_prologue fun hf => ?_
  by_cases hlength : bs.length = 0
  · exact ⟨.latch .badLength, _, .raised _ hf, fun _ _ => if_pos hlength⟩
  by_cases hsum : frameChecks s.cfg.crcOrder bs = true
  · exact ⟨.keep, _, .answered _ hf (.ok _), fun _ _ => (if_neg hlength).trans (if_pos hsum)⟩
  · exact ⟨.keep, _, .answered _ hf (.checkFrame bs), fun _ _ => (if_neg hlength).trans (if_neg hsum)⟩

/-- REPLY: its two verdicts (R77, R108). -/
theorem execReply_performs (sync addr reg : Byte) (data : U32) (crc : Byte) (s : State) :
    Performs (some (.reply sync addr reg data crc)) (execReply sync addr reg data crc) s := by
  refine performs_prologue fun hf => ?_
  by_cases hsum : crc = Machine.crc8 s.cfg.crcOrder ([sync, addr, reg] ++ be32 data)
  · exact ⟨.keep, _, .answered _ hf (.ok _), fun _ _ => if_pos hsum⟩
  · exact ⟨.keep, _, .answered _ hf (.reply sync addr reg data crc), fun _ _ => if_neg hsum⟩

/-- SET_DIVISOR: a legal divisor is stored, any other refused (R134). -/
theorem execSetDivisor_performs (d : U32) (s : State) : Performs (some (.setDivisor d)) (execSetDivisor d) s := by
  refine performs_prologue fun hf => ?_
  by_cases hd : legalDiv d.toNat = true
  · exact ⟨.loadDivisor d.toNat, _, .setDivisor hf hd, fun _ _ => if_pos hd⟩
  · exact ⟨.keep, _, .answered _ hf (.setDivisor d), fun _ _ => if_neg hd⟩

/-- MOVE: its fault, its refusal in DevVel, and the move carried out (R135). -/
theorem execMove_performs (steps : I32) (rpm : U32) (now : Rat) (s : State) :
    Performs (some (.move steps rpm now)) (execMove steps rpm now) s := by
  refine performs_prologue fun hf => ?_
  by_cases hinit : rpm ≠ 0 ∧ s.mdiv = 0
  · exact ⟨.latch .notInitialized, _, .raised _ hf, fun _ _ => if_pos hinit⟩
  by_cases hmode : s.devVel = true
  · exact ⟨.keep, _, .answered _ hf (.move steps rpm now), fun _ _ => (if_neg hinit).trans (if_pos hmode)⟩
  refine ⟨.startMove steps rpm now, _, .move hf hinit hmode, fun tr rs => ?_⟩
  exact (prologue_healthy (s := s.withOutputs tr rs) hf _).symm.trans (execMove_carriedOut now hf hinit hmode)

/-- POLL: its four no-ops, and the due POLL (R136). -/
theorem execPoll_performs (now : Rat) (s : State) : Performs (some (.poll now)) (execPoll now) s := by
  refine performs_prologue fun hf => ?_
  have hok := Does.answered (s := s) Result.none hf (.ok (.poll now))
  by_cases hmode : s.devVel = true
  · exact ⟨.keep, _, hok, fun _ _ => if_pos hmode⟩
  by_cases hremaining : s.remaining = 0
  · exact ⟨.keep, _, hok, fun _ _ => (if_neg hmode).trans (if_pos hremaining)⟩
  by_cases hdelay : s.delay = 0
  · exact ⟨.keep, _, hok, fun _ _ => (if_neg hmode).trans ((if_neg hremaining).trans (if_pos hdelay))⟩
  by_cases hdue : s.nextDue ≤ now
  · exact ⟨.duePoll now, _, .poll hf hmode hremaining hdelay hdue, fun _ _ =>
      (if_neg hmode).trans ((if_neg hremaining).trans ((if_neg hdelay).trans (if_pos hdue)))⟩
  · exact ⟨.keep, _, hok, fun _ _ =>
      (if_neg hmode).trans ((if_neg hremaining).trans ((if_neg hdelay).trans (if_neg hdue)))⟩

theorem execStop_performs (s : State) : Performs (some .stop) execStop s :=
  performs_prologue fun hf => ⟨.halt, _, .stop hf, fun _ _ => rfl⟩

theorem execVelocityMode_performs (s : State) : Performs (some .velocityMode) execVelocityMode s :=
  performs_prologue fun hf => ⟨.enterDevVel, _, .velocityMode hf, fun _ _ => rfl⟩

/-- An illegal op raises ILLEGAL_COMMAND, behind the prologue (R73, R173). -/
theorem illegalCommand_performs (s : State) : Performs none illegalCommand s :=
  performs_prologue fun hf => ⟨.latch .illegalCommand, _, .raised _ hf, fun _ _ => rfl⟩

/-- Every instruction performs what it may do. -/
theorem exec_performs (i : Instr) (s : State) : Performs (some i) (exec i) s := by
  cases i with
  | crc8 bs => exact execCrc8_performs bs s
  | encodeRead addr reg => exact performs_prologue (performs_buildRead addr reg _)
  | encodeWrite addr reg value => exact performs_prologue (performs_buildWrite addr reg value _)
  | checkFrame bs => exact execCheckFrame_performs bs s
  | validateReadback bs =>
    exact performs_prologue fun hf => performs_judgeReadback bs hf (.shortValidate bs) (.validate bs)
  | setDivisor d => exact execSetDivisor_performs d s
  | move steps rpm now => exact execMove_performs steps rpm now s
  | poll now => exact execPoll_performs now s
  | stop => exact execStop_performs s
  | velocityMode => exact execVelocityMode_performs s
  | readRequest addr reg crc => exact performs_prologue (performs_buildRead _ _ _)
  | writeRequest addr reg value crc => exact performs_prologue (performs_buildWrite _ _ _ _)
  | reply sync addr reg data crc => exact execReply_performs sync addr reg data crc s
  | readback echo sync addr reg data crc =>
    exact performs_prologue fun hf => performs_judgeReadback _ hf
      (.shortReadback echo sync addr reg data crc) (.readback echo sync addr reg data crc)

/-- The next state of a meaning is one of the changes followed by its response. -/
theorem Performs.next {i : Option Instr} {meaning : State → Answer} {s t : State} (h : Performs i meaning s)
    (ht : meaning s = .next t) : ∃ c r, Does i s c r ∧ t = (c.apply s).respond r.status r.result := by
  obtain ⟨c, r, hdoes, hanswer⟩ := h
  exact ⟨c, r, hdoes, Host.Outcome.next.inj (ht.symm.trans (hanswer s.trace s.responses))⟩

/-- What every instruction can answer. -/
theorem exec_next {i : Instr} {s t : State} (h : exec i s = .next t) :
    ∃ c r, Does (some i) s c r ∧ t = (c.apply s).respond r.status r.result :=
  (exec_performs i s).next h

/-- Settles O25: the change and the response are the same whatever the outputs hold, and the change only appends its
events. -/
theorem outputsAreNotRead : Obligations.OutputsAreNotRead := by
  intro i s t trace responses h
  obtain ⟨c, r, -, hanswer⟩ := exec_performs i s
  obtain rfl := Host.Outcome.next.inj (h.symm.trans (hanswer s.trace s.responses))
  refine ⟨c.events s, r, c.apply_trace s, congrArg (· ++ [r]) (c.apply_responses s), ?_⟩
  refine (hanswer trace responses).trans (congrArg Host.Outcome.next ?_)
  rw [c.apply_withOutputs]
  rfl

/-! ### Responses (R34, R175) -/

theorem FaultCode.code_ne_zero (c : FaultCode) : c.code ≠ 0 := by
  cases c <;> decide

/-- No command returns FAULTED of its own. -/
theorem Returns.ne_faulted {i : Instr} {st : Status} (h : Returns i st) : st ≠ .faulted := by
  cases h <;> decide

/-- A command either answers FAULTED with the code latched after it, or leaves no fault and returns a status of its
own (R172, R173, R175). -/
theorem Does.response {i : Instr} {s : State} {c : Change} {r : Response} (h : Does (some i) s c r) :
    ((c.apply s).fault ≠ 0 ∧ r = ⟨.faulted, .code (c.apply s).fault⟩) ∨
      ((c.apply s).fault = 0 ∧ Returns i r.status) := by
  cases h with
  | refused hf => exact .inl ⟨hf, rfl⟩
  | raised c hf => exact .inl ⟨c.code_ne_zero, rfl⟩
  | answered r hf hreturns => exact .inr ⟨hf, hreturns⟩
  | setDivisor hf _ => exact .inr ⟨hf, .ok _⟩
  | move hf _ _ => exact .inr ⟨hf, .ok _⟩
  | poll hf _ _ _ _ => exact .inr ⟨(s.duePoll_fault _).trans hf, .ok _⟩
  | stop hf => exact .inr ⟨hf, .ok _⟩
  | velocityMode hf => exact .inr ⟨hf, .ok _⟩

/-- INVALID_CONFIG comes only from SET_DIVISOR. -/
theorem Returns.of_invalidConfig {i : Instr} (h : Returns i .invalidConfig) : ∃ d, i = .setDivisor d := by
  cases h
  exact ⟨_, rfl⟩

/-- MODE_BUSY comes only from MOVE. -/
theorem Returns.of_modeBusy {i : Instr} (h : Returns i .modeBusy) : ∃ n rpm now, i = .move n rpm now := by
  cases h
  exact ⟨_, _, _, rfl⟩

/-- SHORT_REPLY comes only from a read-back's check. -/
theorem Returns.of_shortReply {i : Instr} (h : Returns i .shortReply) :
    (∃ bs, i = .validateReadback bs) ∨ ∃ e y a g d c, i = .readback e y a g d c := by
  cases h with
  | shortValidate bs => exact .inl ⟨bs, rfl⟩
  | shortReadback e y a g d c => exact .inr ⟨e, y, a, g, d, c, rfl⟩

/-- CHECKSUM_MISMATCH comes only from the four checks of a checksum. -/
theorem Returns.of_checksumMismatch {i : Instr} (h : Returns i .checksumMismatch) :
    (∃ bs, i = .checkFrame bs) ∨ (∃ bs, i = .validateReadback bs) ∨
      (∃ y a g d c, i = .reply y a g d c) ∨ ∃ e y a g d c, i = .readback e y a g d c := by
  cases h with
  | checkFrame bs => exact .inl ⟨bs, rfl⟩
  | validate bs => exact .inr (.inl ⟨bs, rfl⟩)
  | reply y a g d c => exact .inr (.inr (.inl ⟨y, a, g, d, c, rfl⟩))
  | readback e y a g d c => exact .inr (.inr (.inr ⟨e, y, a, g, d, c, rfl⟩))

/-- Settles O23: the one response is FAULTED with the latched code, or one of the statuses its command returns. -/
theorem oneResponsePerCommand : Obligations.OneResponsePerCommand := by
  intro i s t h
  obtain ⟨c, r, hdoes, rfl⟩ := exec_next h
  refine ⟨r, congrArg (· ++ [r]) (c.apply_responses s), ?_⟩
  rw [State.respond_fault]
  obtain ⟨hfault, rfl⟩ | ⟨hfault, hreturns⟩ := hdoes.response
  · exact ⟨iff_of_true rfl hfault, fun _ => rfl, nofun, nofun, nofun, nofun⟩
  · exact ⟨iff_of_false hreturns.ne_faulted (not_not_intro hfault), fun h => absurd hfault h,
      fun h => (h ▸ hreturns).of_invalidConfig, fun h => (h ▸ hreturns).of_modeBusy,
      fun h => (h ▸ hreturns).of_shortReply, fun h => (h ▸ hreturns).of_checksumMismatch⟩

/-! ### The remaining count (R24, R37) -/

/-- A signed 32-bit count has absolute value at most 2^31 (R142). -/
theorem absSteps_le (steps : I32) : (absSteps steps).toNat ≤ 2 ^ 31 := by
  have hlt := BitVec.toInt_lt (x := steps)
  have hle := BitVec.le_toInt (x := steps)
  rw [absSteps_toNat]
  omega

/-- Counting a step off a count that is not 0 lowers it by 1. -/
theorem toNat_sub_one_le {n : U32} (h : n ≠ 0) : (n - 1).toNat ≤ n.toNat := by
  bv_omega

/-- A command leaves `remaining` at most what it was, unless it starts a move. -/
theorem Does.remaining_le {i : Option Instr} {s : State} {c : Change} {r : Response} (h : Does i s c r) :
    (c.apply s).remaining.toNat ≤ s.remaining.toNat ∨
      ∃ n rpm now, i = some (.move n rpm now) ∧ (c.apply s).remaining = absSteps n := by
  cases h with
  | move _ _ _ => exact .inr ⟨_, _, _, rfl, rfl⟩
  | poll _ _ hremaining _ _ =>
    simp only [Change.apply, duePoll_eq]
    exact .inl (toNat_sub_one_le hremaining)
  | stop _ => exact .inl (Nat.zero_le _)
  | _ => exact .inl le_rfl

/-- Settles O54: a MOVE loads the absolute value of its steps, and nothing else raises the count. -/
theorem remainingGrowsOnlyByMove : Obligations.RemainingGrowsOnlyByMove := by
  intro i s t h
  obtain ⟨c, r, hdoes, rfl⟩ := exec_next h
  obtain hle | ⟨n, rpm, now, hi, hmove⟩ := hdoes.remaining_le
  · exact .inl hle
  · exact .inr ⟨n, rpm, now, Option.some.inj hi, (congrArg BitVec.toNat hmove).trans_le (absSteps_le n)⟩

/-! ### Invariants of every step

A property that neither the inbox nor the responses enter into is kept by every step when the changes and reset keep
it. -/

section StepKeeps

variable {P : State → Prop}

/-- A meaning keeps what its changes and its response keep. -/
theorem Performs.ensures {i : Option Instr} {meaning : State → Answer} {s : State} (h : Performs i meaning s)
    (hrespond : ∀ s st r, P s → P (s.respond st r)) (hchange : ∀ c r, Does i s c r → P (c.apply s)) :
    Ensures (meaning s) P := by
  intro t ht
  obtain ⟨c, r, hdoes, rfl⟩ := h.next ht
  exact hrespond _ _ _ (hchange c r hdoes)

/-- Issuing a record keeps what the changes and the response keep, whatever the decoder makes of it. -/
theorem issueRecord_ensures {s : State} (r : Record) (hrespond : ∀ s st r, P s → P (s.respond st r))
    (hchange : ∀ i c r, Does i s c r → P (c.apply s)) : Ensures (issueRecord r s) P := by
  match h : decode s.cfg r with
  | .ok i => exact issueRecord_of_decode_ok h ▸ (exec_performs i s).ensures hrespond (hchange _)
  | .error (.illegalOp _) =>
    exact issueRecord_of_illegalOp h ▸ (illegalCommand_performs s).ensures hrespond (hchange _)
  | .error (.operandMismatch _) => exact issueRecord_of_operandMismatch h ▸ ensures_refused _ _
  | .error .notAFrame => exact issueRecord_of_notAFrame h ▸ ensures_refused _ _

/-- A step keeps what taking an input, the changes, the response and reset keep. -/
theorem step_keeps {s : State} (hinbox : ∀ s rest, P s → P { s with inbox := rest })
    (hrespond : ∀ s st r, P s → P (s.respond st r))
    (hchange : ∀ i s c r, Does i s c r → P s → P (c.apply s))
    (hreset : ∀ s, P s → P s.applyReset) (hs : P s) : Ensures (step s) P := by
  match h : s.inbox with
  | [] => exact step_of_inbox_nil h ▸ ensures_next.2 hs
  | .record r :: rest =>
    rw [step_of_inbox_record h]
    exact issueRecord_ensures r hrespond fun i c r hdoes => hchange i _ c r hdoes (hinbox s rest hs)
  | .reset :: rest => exact step_of_inbox_reset h ▸ ensures_next.2 (hinbox _ rest (hreset s hs))
  | .resetDuring _ :: _ => exact step_of_inbox_resetDuring h ▸ ensures_fault _ _

end StepKeeps

/-! ### The registers' invariant (R23, R24, R26, R28, R31, R37) -/

theorem FaultCode.code_le (c : FaultCode) : c.code.toNat ≤ 5 := by
  cases c <;> decide

/-- A legal divisor is not 0 (R132). -/
theorem ne_zero_of_legalDiv {d : Nat} (h : legalDiv d = true) : d ≠ 0 := by
  rintro rfl
  exact absurd h (by decide)

/-- The delay a divisor recomputes is the one that RPM and divisor give, also where it is left as it was: it is 0 for
`rpm = 0` (R134). -/
theorem loadDivisor_delay_of_regsInv {s : State} (h : s.RegsInv) (d : Nat) :
    (s.loadDivisor d).delay = moveDelay s.rpm d := by
  obtain ⟨-, -, -, -, hdelay, -⟩ := h
  by_cases hrpm : s.rpm = 0
  · simp only [State.loadDivisor_delay, hdelay, moveDelay, if_pos hrpm]
  · simp only [State.loadDivisor_delay, moveDelay, if_neg hrpm]

/-- Every change a command may make keeps the registers' invariant. -/
theorem Does.keeps_regsInv {i : Option Instr} {s : State} {c : Change} {r : Response} (hdoes : Does i s c r)
    (hs : s.RegsInv) : (c.apply s).RegsInv := by
  have hloaded := loadDivisor_delay_of_regsInv hs
  obtain ⟨hfault, hremaining, hmdiv, hrpm, hdelay, hstep⟩ := hs
  have hlow (p : Prop) [Decidable p] : (if p then s.step else false) = false := by simp [hstep]
  cases hdoes with
  | refused _ => exact ⟨hfault, hremaining, hmdiv, hrpm, hdelay, hstep⟩
  | raised c _ => exact ⟨c.code_le, hremaining, hmdiv, hrpm, hdelay, hstep⟩
  | answered _ _ _ => exact ⟨hfault, hremaining, hmdiv, hrpm, hdelay, hstep⟩
  | setDivisor _ hd =>
    exact ⟨hfault, hremaining, .inr hd, fun h => absurd h (ne_zero_of_legalDiv hd), hloaded _, hstep⟩
  | @move steps _ _ _ _ hinit _ =>
    exact ⟨hfault, absSteps_le steps, hmdiv, fun h => not_not.1 fun hne => hinit ⟨hne, h⟩, rfl, hlow _⟩
  | poll _ _ hne _ _ =>
    simp only [Change.apply, duePoll_eq]
    exact ⟨hfault, (toNat_sub_one_le hne).trans hremaining, hmdiv, hrpm, hdelay, hlow _⟩
  | stop _ => exact ⟨hfault, Nat.zero_le _, hmdiv, hrpm, hdelay, hstep⟩
  | velocityMode _ => exact ⟨hfault, hremaining, hmdiv, hrpm, hdelay, hstep⟩

/-- Reset gives values that meet the registers' invariant (R200). -/
theorem State.applyReset_regsInv (s : State) : s.applyReset.RegsInv :=
  ⟨Nat.zero_le _, Nat.zero_le _, .inl rfl, fun _ => rfl, rfl, rfl⟩

/-- Settles O57: every change keeps the invariant, and reset establishes it. -/
theorem stepKeepsRegsInv : Obligations.StepKeepsRegsInv := fun _ t hs =>
  step_keeps (P := State.RegsInv) (fun _ _ h => h) (fun _ _ _ h => h) (fun _ _ _ _ h => h.keeps_regsInv)
    (fun s _ => s.applyReset_regsInv) hs t

/-- Settles O11, by the values of `State.reset`. -/
theorem powerOnValues : Obligations.PowerOnValues :=
  ⟨rfl, rfl, rfl, rfl, rfl, rfl, rfl, rfl, rfl, rfl⟩

/-- Settles O56: power-on leaves the registers with the values of a reset. -/
theorem regsInvAfterPowerOn : Obligations.RegsInvAfterPowerOn :=
  State.reset.applyReset_regsInv

/-! ### The trace's invariant (R30, R31, R33, R131) -/

/-- After whole pulses, a trace consists of whole pulses when its rest does. -/
theorem wholePulses_append {a : List LineEvent} (ha : wholePulses a = true) (b : List LineEvent) :
    wholePulses (a ++ b) = wholePulses b := by
  induction a using wholePulses.induct with
  | case1 => rfl
  | case2 rest ih => exact ih ha
  | case3 v rest hpulse => simp [wholePulses] at ha
  | case4 v rest ih => exact ih ha
  | case5 rest ih => exact ih ha

/-- The levels after a concatenation are those its second part leads to from those of its first. -/
theorem lineLevels_append (a b : List LineEvent) : lineLevels (a ++ b) = b.foldl levelsAfter (lineLevels a) :=
  List.foldl_append

/-- Events that are whole pulses and lead the lines to the new `dir` and `step` keep the trace's invariant. -/
theorem State.TraceInv.append {s t : State} {es : List LineEvent} (hs : s.TraceInv) (htrace : t.trace = s.trace ++ es)
    (hwhole : wholePulses es = true) (hlevels : es.foldl levelsAfter (s.dir, s.step) = (t.dir, t.step)) :
    t.TraceInv := by
  obtain ⟨hpulses, hlines⟩ := hs
  exact ⟨by rw [htrace, wholePulses_append hpulses, hwhole], by rw [htrace, lineLevels_append, hlines, hlevels]⟩

/-- A change emits only whole pulses. -/
theorem Change.wholePulses_events (c : Change) (s : State) : wholePulses (c.events s) = true := by
  cases c with
  | startMove steps rpm now => exact wholePulses_pulseUnless _
  | duePoll now => exact wholePulses_pulseUnless _
  | _ => rfl

/-- The events of a change lead the lines to its `dir` and `step`. -/
theorem Change.levels_events (c : Change) (s : State) :
    (c.events s).foldl levelsAfter (s.dir, s.step) = ((c.apply s).dir, (c.apply s).step) := by
  cases c with
  | startMove steps rpm now => exact levels_pulseUnless _ _ _
  | duePoll now =>
    simp only [Change.apply, duePoll_eq]
    exact levels_pulseUnless _ _ _
  | _ => rfl

/-- Every change keeps the trace's invariant. -/
theorem Change.keeps_traceInv (c : Change) {s : State} (hs : s.TraceInv) : (c.apply s).TraceInv :=
  hs.append (c.apply_trace s) (c.wholePulses_events s) (c.levels_events s)

/-- Settles O59: a change appends whole pulses and drives the lines to its registers, and reset puts both low. -/
theorem stepKeepsTraceInv : Obligations.StepKeepsTraceInv := fun _ t hs =>
  step_keeps (P := State.TraceInv) (fun _ _ h => h) (fun _ _ _ h => h) (fun _ _ c _ _ h => c.keeps_traceInv h)
    (fun s h => h.append s.applyReset_trace rfl rfl) hs t

end Sys2Proof.Machine

namespace Sys2Proof.Machine

/-! ### Every instruction answers a next state (R57, R170) -/

/-- Settles O14: every instruction performs a change and returns its response. -/
theorem everyInstructionAnswersNext : Obligations.EveryInstructionAnswersNext := by
  intro i s
  obtain ⟨c, r, -, hanswer⟩ := exec_performs i s
  exact ⟨_, hanswer s.trace s.responses⟩

/-! ### Commands issued twice (R58, R59)

A command that kept the state or latched a fault answers the same again; the changes to the step-pulse registers are
left to the commands that make them. -/

/-- While a fault is latched every instruction is refused with the latched code (R173). -/
theorem exec_latched (i : Instr) {s : State} (h : s.fault ≠ 0) :
    exec i s = .next (s.respond .faulted (.code s.fault)) := by
  obtain ⟨c, r, hdoes, hanswer⟩ := exec_performs i s
  cases hdoes with
  | refused _ => exact hanswer s.trace s.responses
  | _ => exact absurd ‹s.fault = 0› h

/-- The changes that write the step-pulse unit's registers: all but keeping the state and latching a fault. -/
def Change.writesMotion : Change → Bool
  | .keep => false
  | .latch _ => false
  | .loadDivisor _ => true
  | .startMove _ _ _ => true
  | .duePoll _ => true
  | .halt => true
  | .enterDevVel => true

/-- An FC instruction writes no register of the step-pulse unit (R110). -/
theorem Does.writesMotion_of_isCodec {i : Instr} {s : State} {c : Change} {r : Response}
    (h : Does (some i) s c r) (hcodec : isCodec i = true) : c.writesMotion = false := by
  cases h with
  | refused _ => rfl
  | raised _ _ => rfl
  | answered _ _ _ => rfl
  | setDivisor _ _ => cases hcodec
  | move _ _ _ => cases hcodec
  | poll _ _ _ _ _ => cases hcodec
  | stop _ => cases hcodec
  | velocityMode _ => cases hcodec

/-- Issued again in `t`, the instruction returns `r` and changes nothing else. -/
def Repeats (i : Instr) (t : State) (r : Response) : Prop :=
  exec i t = .next (t.respond r.status r.result)

/-- An instruction repeats when it does so after each change it may make to the step-pulse registers: a state that it
kept differs in the outputs only, which are not read, and a fault that it latched refuses it with the code it
returned. -/
theorem exec_repeats {i : Instr} {s t : State} (h : exec i s = .next t)
    (hmotion : ∀ c r, Does (some i) s c r → c.writesMotion = true →
      Repeats i ((c.apply s).respond r.status r.result) r) :
    ∃ r : Response, t.responses = s.responses ++ [r] ∧ Repeats i t r := by
  obtain ⟨c, r, hdoes, hanswer⟩ := exec_performs i s
  obtain rfl := Host.Outcome.next.inj (h.symm.trans (hanswer s.trace s.responses))
  refine ⟨r, congrArg (· ++ [r]) (c.apply_responses s), ?_⟩
  match c with
  | .keep => exact hanswer s.trace (s.responses ++ [r])
  | .latch f =>
    cases hdoes
    exact exec_latched i f.code_ne_zero
  | .loadDivisor _ | .startMove _ _ _ | .duePoll _ | .halt | .enterDevVel => exact hmotion _ r hdoes rfl

/-- Settles O38: an FC instruction makes no change to the step-pulse registers, so it repeats. -/
theorem codecIsIdempotent : Obligations.CodecIsIdempotent := by
  intro i s t hcodec h
  refine exec_repeats h fun c r hdoes hmotion => ?_
  exact absurd ((hdoes.writesMotion_of_isCodec hcodec).symm.trans hmotion) Bool.false_ne_true

/-- STOP in a healthy state (R137). -/
theorem exec_stop_healthy {s : State} (hf : s.fault = 0) : exec .stop s = .next (s.halt.respond .ok .none) :=
  prologue_healthy hf fun s => .next (s.halt.respond .ok .none)

/-- VELOCITY_MODE in a healthy state (R138). -/
theorem exec_velocityMode_healthy {s : State} (hf : s.fault = 0) :
    exec .velocityMode s = .next (s.enterDevVel.respond .ok .none) :=
  prologue_healthy hf fun s => .next (s.enterDevVel.respond .ok .none)

/-- SET_DIVISOR of a legal divisor in a healthy state (R134). -/
theorem exec_setDivisor_legal {d : U32} {s : State} (hf : s.fault = 0) (hd : legalDiv d.toNat = true) :
    exec (.setDivisor d) s = .next ((s.loadDivisor d.toNat).respond .ok (.mres (mres d.toNat))) := by
  simp only [exec, execSetDivisor, prologue_healthy hf, if_pos hd]

/-- A divisor loaded twice leaves the delay it gave the first time (R134). -/
theorem State.loadDivisor_respond_loadDivisor (s : State) (d : Nat) (st : Status) (r : Result) :
    ((s.loadDivisor d).respond st r).loadDivisor d = (s.loadDivisor d).respond st r := by
  simp only [State.loadDivisor, State.respond]
  split <;> rfl

/-- SET_DIVISOR of a legal divisor finds it loaded (R134). -/
theorem setDivisor_repeats {d : U32} {s : State} (hf : s.fault = 0) (hd : legalDiv d.toNat = true) :
    Repeats (.setDivisor d) ((s.loadDivisor d.toNat).respond .ok (.mres (mres d.toNat)))
      ⟨.ok, .mres (mres d.toNat)⟩ := by
  have hhealthy : ((s.loadDivisor d.toNat).respond .ok (.mres (mres d.toNat))).fault = 0 := hf
  rw [Repeats, exec_setDivisor_legal hhealthy hd, State.loadDivisor_respond_loadDivisor]

/-- Settles O49: each of the three commands finds its own writes done. -/
theorem stopVelocityAndDivisorAreIdempotent : Obligations.StopVelocityAndDivisorAreIdempotent := by
  intro i s t hi h
  refine exec_repeats h fun c r hdoes hmotion => ?_
  cases hdoes with
  | refused _ => cases hmotion
  | raised _ _ => cases hmotion
  | answered _ _ _ => cases hmotion
  | setDivisor hf hd => exact setDivisor_repeats hf hd
  | move _ _ _ => simp at hi
  | poll _ _ _ _ _ => simp at hi
  | stop hf => exact exec_stop_healthy (s := s.halt.respond .ok .none) hf
  | velocityMode hf => exact exec_velocityMode_healthy (s := s.enterDevVel.respond .ok .none) hf

/-! ### The decoder undoes the encoder (R71, R72, R75 to R78) -/

/-- The two address bits of a request's row are a legal driver address (R79). -/
theorem legalAddr_setWidth (addr : BitVec 2) : legalAddr (addr.setWidth 8) = true := by
  rw [legalAddr_iff, BitVec.toNat_setWidth]
  omega

/-- The seven register bits of a read request's row are a legal register (R80). -/
theorem legalReg_setWidth (reg : BitVec 7) : legalReg (reg.setWidth 8) = true := by
  rw [legalReg_iff, BitVec.toNat_setWidth]
  omega

/-- The register byte of a write request has bit 7 set, so it is no legal register operand (R76, R80). -/
theorem legalReg_or_writeFlag (reg : BitVec 7) : legalReg (reg.setWidth 8 ||| writeFlag) = false := by
  have hflag : writeFlag.toNat ≤ (reg.setWidth 8 ||| writeFlag).toNat := by
    rw [BitVec.toNat_or]
    exact Nat.right_le_or
  exact Bool.eq_false_iff.2 fun h => absurd ((legalReg_iff _).1 h) (Nat.not_lt.2 hflag)

/-- The seven register bits stand below the write flag (R76). -/
theorem setWidth_or_writeFlag (reg : BitVec 7) : (reg.setWidth 8 ||| writeFlag).setWidth 7 = reg := by
  rw [BitVec.setWidth_or, BitVec.setWidth_setWidth_of_le _ (by omega), BitVec.setWidth_eq]
  exact BitVec.or_zero

/-- The decoder reads every instruction back from its encoding. -/
theorem decode_encode (cfg : Config) (i : Instr) : decode cfg (encode cfg i) = .ok i := by
  cases i with
  | readRequest addr reg crc =>
    refine (if_pos ⟨rfl, legalAddr_setWidth addr, legalReg_setWidth reg⟩).trans ?_
    rw [BitVec.setWidth_setWidth_of_le _ (by omega), BitVec.setWidth_setWidth_of_le _ (by omega),
      BitVec.setWidth_eq, BitVec.setWidth_eq]
  | writeRequest addr reg value crc =>
    refine (if_pos ⟨rfl, legalAddr_setWidth addr, legalReg_or_writeFlag reg⟩).trans ?_
    rw [BitVec.setWidth_setWidth_of_le _ (by omega), BitVec.setWidth_eq, setWidth_or_writeFlag, ofBe32_extract]
  | reply sync addr reg data crc =>
    exact congrArg (fun d => Except.ok (Instr.reply sync addr reg d crc)) (ofBe32_extract data)
  | readback echo sync addr reg data crc =>
    exact congrArg₂ (fun e d => Except.ok (Instr.readback e sync addr reg d crc)) (ofBe32_extract echo)
      (ofBe32_extract data)
  | _ => rfl

/-! ### No command reads or writes the inbox (R60) -/

/-- The same answer with other inputs waiting in the next state. -/
def answerWithInbox (rest : List Input) : Answer → Answer
  | .next t => .next { t with inbox := rest }
  | .fault r => .fault r
  | .refused r => .refused r

/-- What waits in the inbox goes through the meaning untouched and changes nothing else of its answer. -/
def IgnoresInbox (meaning : State → Answer) : Prop :=
  ∀ (s : State) (rest : List Input), meaning { s with inbox := rest } = answerWithInbox rest (meaning s)

theorem ignoresInbox_prologue {body : State → Answer} (h : IgnoresInbox body) :
    IgnoresInbox fun s => prologue s body := by
  intro s rest
  simp only [prologue, h s rest, apply_ite (answerWithInbox rest)]
  rfl

theorem ignoresInbox_withLegalTarget (addr reg : Byte) {body : State → Answer} (h : IgnoresInbox body) :
    IgnoresInbox fun s => withLegalTarget addr reg s body := by
  intro s rest
  simp only [withLegalTarget, h s rest, apply_ite (answerWithInbox rest)]
  rfl

theorem buildRead_ignoresInbox (addr reg : Byte) : IgnoresInbox (buildRead addr reg) :=
  ignoresInbox_withLegalTarget addr reg fun _ _ => rfl

theorem buildWrite_ignoresInbox (addr reg : Byte) (value : Int) : IgnoresInbox (buildWrite addr reg value) :=
  ignoresInbox_withLegalTarget addr reg fun _ _ => rfl

theorem judgeReadback_ignoresInbox (bs : List Byte) : IgnoresInbox (judgeReadback bs) :=
  fun _ _ => rfl

theorem execCheckFrame_ignoresInbox (bs : List Byte) : IgnoresInbox (execCheckFrame bs) := by
  refine ignoresInbox_prologue fun s rest => ?_
  simp only [apply_ite (answerWithInbox rest)]
  rfl

theorem execReply_ignoresInbox (sync addr reg : Byte) (data : U32) (crc : Byte) :
    IgnoresInbox (execReply sync addr reg data crc) := by
  refine ignoresInbox_prologue fun s rest => ?_
  simp only [apply_ite (answerWithInbox rest)]
  rfl

theorem execSetDivisor_ignoresInbox (d : U32) : IgnoresInbox (execSetDivisor d) := by
  refine ignoresInbox_prologue fun s rest => ?_
  simp only [apply_ite (answerWithInbox rest)]
  rfl

/-- The branch on a move without steps is between whole states, so it is split by hand. -/
theorem execMove_ignoresInbox (steps : I32) (rpm : U32) (now : Rat) : IgnoresInbox (execMove steps rpm now) := by
  refine ignoresInbox_prologue fun s rest => ?_
  simp only [apply_ite (answerWithInbox rest)]
  by_cases hsteps : steps = 0
  · simp only [if_pos hsteps]
    rfl
  · simp only [if_neg hsteps]
    rfl

theorem execPoll_ignoresInbox (now : Rat) : IgnoresInbox (execPoll now) := by
  refine ignoresInbox_prologue fun s rest => ?_
  simp only [apply_ite (answerWithInbox rest), duePoll_eq]
  rfl

/-- No instruction reads or writes what waits in the inbox. -/
theorem exec_ignoresInbox (i : Instr) : IgnoresInbox (exec i) := by
  cases i with
  | crc8 bs => exact ignoresInbox_prologue fun _ _ => rfl
  | encodeRead addr reg => exact ignoresInbox_prologue (buildRead_ignoresInbox _ _)
  | encodeWrite addr reg value => exact ignoresInbox_prologue (buildWrite_ignoresInbox _ _ _)
  | checkFrame bs => exact execCheckFrame_ignoresInbox bs
  | validateReadback bs => exact ignoresInbox_prologue (judgeReadback_ignoresInbox _)
  | setDivisor d => exact execSetDivisor_ignoresInbox d
  | move steps rpm now => exact execMove_ignoresInbox steps rpm now
  | poll now => exact execPoll_ignoresInbox now
  | stop => exact ignoresInbox_prologue fun _ _ => rfl
  | velocityMode => exact ignoresInbox_prologue fun _ _ => rfl
  | readRequest addr reg crc => exact ignoresInbox_prologue (buildRead_ignoresInbox _ _)
  | writeRequest addr reg value crc => exact ignoresInbox_prologue (buildWrite_ignoresInbox _ _ _)
  | reply sync addr reg data crc => exact execReply_ignoresInbox sync addr reg data crc
  | readback echo sync addr reg data crc => exact ignoresInbox_prologue (judgeReadback_ignoresInbox _)

/-- With other inputs waiting, an instruction comes to the same next state but for them. -/
theorem exec_withInbox {i : Instr} {s t : State} (h : exec i s = .next t) (rest : List Input) :
    exec i { s with inbox := rest } = .next { t with inbox := rest } := by
  rw [exec_ignoresInbox, h]
  rfl

theorem exec_inbox {i : Instr} {s t : State} (h : exec i s = .next t) : t.inbox = s.inbox :=
  congrArg (·.inbox) (Host.Outcome.next.inj (h.symm.trans (exec_withInbox h s.inbox)))

/-! ### Commands take effect in the order issued (R60) -/

/-- A sequence of commands completes by its first command and then the others. -/
theorem issue_cons_next {i : Instr} {is : List Instr} {s t : State} (h : issue (i :: is) s = .next t) :
    ∃ u, exec i s = .next u ∧ issue is u = .next t := by
  obtain ⟨u, hu⟩ := everyInstructionAnswersNext i s
  simp only [issue, hu] at h
  exact ⟨u, hu, h⟩

theorem runSteps_succ {s u : State} (h : step s = .next u) (k : Nat) : runSteps (k + 1) s = runSteps k u := by
  simp only [runSteps, h]

/-- A step on an instruction's encoding takes it from the inbox and runs it, before whatever waits behind. -/
theorem step_encoded {i : Instr} {s u : State} (h : exec i s = .next u) (rest : List Input) :
    step { s with inbox := .record (encode s.cfg i) :: rest } = .next { u with inbox := rest } :=
  (stepRunsTheDecodedRecord { s with inbox := _ :: rest } _ rest i rfl (decode_encode s.cfg i)).trans
    (exec_withInbox h rest)

/-- Put before what waits already, the encodings of a sequence run as the sequence issued: each step takes the first
and leaves the others, to be read under the same parameters. -/
theorem runSteps_encoded {cfg : Config} {is : List Instr} {s t : State} (hcfg : s.cfg = cfg)
    (h : issue is s = .next t) :
    runSteps is.length { s with inbox := is.map (fun i => .record (encode cfg i)) ++ s.inbox } = .next t := by
  induction is generalizing s with
  | nil => exact h
  | cons i is ih =>
    subst hcfg
    obtain ⟨u, hexec, hissue⟩ := issue_cons_next h
    have hrest := ih (exec_keepsCfg i s u hexec) hissue
    rw [exec_inbox hexec] at hrest
    exact (runSteps_succ (step_encoded hexec _) is.length).trans hrest

/-- Settles O12: the encodings run as the sequence does, whatever waits behind them. -/
theorem commandsTakeEffectInOrder : Obligations.CommandsTakeEffectInOrder :=
  fun _ s _ rest h => runSteps_encoded (s := { s with inbox := rest }) rfl h

end Sys2Proof.Machine

namespace Sys2Proof.Machine

/-! ### The encoder undoes the decoder (R71, R72, R75 to R78) -/

/-- Settles O1: by the constructors of the instruction. -/
theorem decodeInvertsEncode : Obligations.DecodeInvertsEncode :=
  decode_encode

/-- A legal driver address stands in its two low bits (R79). -/
theorem setWidth_setWidth_of_legalAddr {a : Byte} (h : legalAddr a = true) : (a.setWidth 2).setWidth 8 = a := by
  have ha := (legalAddr_iff a).1 h
  apply BitVec.eq_of_toNat_eq
  simp only [BitVec.toNat_setWidth]
  omega

/-- A legal register stands in its seven low bits (R80). -/
theorem setWidth_setWidth_of_legalReg {r : Byte} (h : legalReg r = true) : (r.setWidth 7).setWidth 8 = r := by
  have hr := (legalReg_iff r).1 h
  apply BitVec.eq_of_toNat_eq
  simp only [BitVec.toNat_setWidth]
  omega

/-- The register byte of a write request as a number (R76). -/
theorem setWidth_or_writeFlag_eq_ofNat (reg : BitVec 7) :
    reg.setWidth 8 ||| writeFlag = BitVec.ofNat 8 (reg.toNat + 0x80) := by
  have hdisjoint : reg.setWidth 8 &&& writeFlag = 0#8 := by
    apply BitVec.eq_of_getLsbD_eq
    intro i hi
    interval_cases i <;> simp [writeFlag]
  rw [← BitVec.add_eq_or_of_and_eq_zero _ _ hdisjoint, BitVec.ofNat_add, BitVec.ofNat_toNat, writeFlag]
  rfl

/-- A register byte that is no legal operand is its seven low bits under the write flag (R76, R80). -/
theorem setWidth_or_writeFlag_of_not_legalReg {r : Byte} (h : legalReg r = false) :
    (r.setWidth 7).setWidth 8 ||| writeFlag = r := by
  have hr : ¬r.toNat < 0x80 := mt (legalReg_iff r).2 (Bool.eq_false_iff.1 h)
  rw [setWidth_or_writeFlag_eq_ofNat]
  apply BitVec.eq_of_toNat_eq
  simp only [BitVec.toNat_setWidth, BitVec.toNat_ofNat]
  omega

/-- An op byte known by its number. -/
theorem eq_ofNat_of_toNat_eq {op : Byte} {n : Nat} (h : op.toNat = n) : op = BitVec.ofNat 8 n :=
  h ▸ (BitVec.ofNat_toNat 8 op).symm

/-- In each row of R72's table the op byte and the operand list are those of the instruction decoded; the other records
are errors. -/
theorem encode_of_decodeCommand (cfg : Config) {op : Byte} {operands : List Operand} {i : Instr}
    (h : decodeCommand op operands = .ok i) : encode cfg i = .command op operands := by
  revert h
  fun_cases decodeCommand op operands
  all_goals
    intro h
    cases h
  all_goals
    obtain rfl := eq_ofNat_of_toNat_eq ‹op.toNat = _›
    rfl

/-- A request's fixed bits and its fields are the whole of its bytes. -/
theorem encode_of_decodeRequest {cfg : Config} {bytes : List Byte} {i : Instr}
    (h : decodeRequest cfg bytes = .ok i) : encode cfg i = .request bytes := by
  revert h
  fun_cases decodeRequest cfg bytes
  all_goals
    intro h
    cases h
  case case1 hlegal =>
    obtain ⟨rfl, haddr, hreg⟩ := hlegal
    simp only [encode, setWidth_setWidth_of_legalAddr haddr, setWidth_setWidth_of_legalReg hreg]
  case case3 hlegal =>
    obtain ⟨rfl, haddr, hreg⟩ := hlegal
    simp only [encode, setWidth_setWidth_of_legalAddr haddr, setWidth_or_writeFlag_of_not_legalReg hreg, be32_ofBe32,
      List.cons_append, List.nil_append]

/-- A received frame's fields are the whole of its bytes. -/
theorem encode_of_decodeReceived (cfg : Config) {bytes : List Byte} {i : Instr}
    (h : decodeReceived bytes = .ok i) : encode cfg i = .received bytes := by
  revert h
  fun_cases decodeReceived bytes
  all_goals
    intro h
    cases h
  all_goals simp only [encode, be32_ofBe32, List.cons_append, List.nil_append]

/-- Settles O2: by the kinds of record. -/
theorem encodeInvertsDecode : Obligations.EncodeInvertsDecode := by
  intro cfg r i h
  cases r with
  | command op operands => exact encode_of_decodeCommand cfg h
  | request bytes => exact encode_of_decodeRequest h
  | received bytes => exact encode_of_decodeReceived cfg h

/-! ### Operand lists and R72's table -/

@[simp] theorem kind_eq_bytes_iff {o : Operand} : o.kind = .bytes ↔ ∃ bs, o = .bytes bs := by
  cases o <;> simp [Operand.kind]

@[simp] theorem kind_eq_u8_iff {o : Operand} : o.kind = .u8 ↔ ∃ v, o = .u8 v := by
  cases o <;> simp [Operand.kind]

@[simp] theorem kind_eq_u32_iff {o : Operand} : o.kind = .u32 ↔ ∃ v, o = .u32 v := by
  cases o <;> simp [Operand.kind]

@[simp] theorem kind_eq_i32_iff {o : Operand} : o.kind = .i32 ↔ ∃ v, o = .i32 v := by
  cases o <;> simp [Operand.kind]

@[simp] theorem kind_eq_int_iff {o : Operand} : o.kind = .int ↔ ∃ v, o = .int v := by
  cases o <;> simp [Operand.kind]

@[simp] theorem kind_eq_rat_iff {o : Operand} : o.kind = .rat ↔ ∃ v, o = .rat v := by
  cases o <;> simp [Operand.kind]

/-- Every instruction's encoding has the shape spec/30_encoding.md gives. -/
theorem encodingShape (i : Instr) : Laws.EncodingShape.Statement i := by
  cases i with
  | crc8 bs => exact Laws.EncodingShape.crc8 bs
  | encodeRead addr reg => exact Laws.EncodingShape.encodeRead addr reg
  | encodeWrite addr reg value => exact Laws.EncodingShape.encodeWrite addr reg value
  | checkFrame bs => exact Laws.EncodingShape.checkFrame bs
  | validateReadback bs => exact Laws.EncodingShape.validateReadback bs
  | setDivisor d => exact Laws.EncodingShape.setDivisor d
  | move steps rpm now => exact Laws.EncodingShape.move steps rpm now
  | poll now => exact Laws.EncodingShape.poll now
  | stop => exact Laws.EncodingShape.stop
  | velocityMode => exact Laws.EncodingShape.velocityMode
  | readRequest addr reg crc => exact Laws.EncodingShape.readRequest addr reg crc
  | writeRequest addr reg value crc => exact Laws.EncodingShape.writeRequest addr reg value crc
  | reply sync addr reg data crc => exact Laws.EncodingShape.reply sync addr reg data crc
  | readback echo sync addr reg data crc => exact Laws.EncodingShape.readback echo sync addr reg data crc

/-- Operands of the types a row of R72 lists are the operands of that row's instruction. -/
theorem exists_decodeCommand_ok {op : Byte} {operands : List Operand}
    (h : operandKinds op = some (operands.map Operand.kind)) : ∃ i, decodeCommand op operands = .ok i := by
  revert h
  fun_cases operandKinds op
  case case11 => exact nofun
  all_goals
    obtain rfl := eq_ofNat_of_toNat_eq ‹op.toNat = _›
    simp only [Option.some.injEq, eq_comm (b := operands.map _), List.map_eq_cons_iff, List.map_eq_nil_iff,
      kind_eq_bytes_iff, kind_eq_u8_iff, kind_eq_u32_iff, kind_eq_i32_iff, kind_eq_int_iff, kind_eq_rat_iff,
      forall_exists_index, and_imp]
    intros
    subst_vars
    exact ⟨_, rfl⟩

/-- A command record decodes to an instruction exactly with the operand types R72 lists for its op byte. -/
theorem exists_decodeCommand_ok_iff (op : Byte) (operands : List Operand) :
    (∃ i, decodeCommand op operands = .ok i) ↔ operandKinds op = some (operands.map Operand.kind) := by
  refine ⟨fun ⟨i, h⟩ => ?_, exists_decodeCommand_ok⟩
  have hshape := encodingShape i defaultConfig
  rwa [encode_of_decodeCommand defaultConfig h] at hshape

/-- The decoder's two errors on a command record. -/
theorem decodeCommand_error {op : Byte} {operands : List Operand} {e : DecodeError}
    (h : decodeCommand op operands = .error e) : e = .illegalOp op ∨ e = .operandMismatch op := by
  revert h
  fun_cases decodeCommand op operands
  all_goals
    intro h
    cases h
  all_goals simp

/-- A legal op byte with other operands than R72's is refused by the decoder as a mismatch (log entry 8). -/
theorem decodeCommand_of_kinds_ne {op : Byte} {operands : List Operand} {kinds : List OperandKind}
    (hop : operandKinds op = some kinds) (hkinds : operands.map Operand.kind ≠ kinds) :
    decodeCommand op operands = .error (.operandMismatch op) := by
  match h : decodeCommand op operands with
  | .ok i =>
    have hrow := (exists_decodeCommand_ok_iff op operands).1 ⟨i, h⟩
    exact absurd (Option.some.inj (hrow.symm.trans hop)) hkinds
  | .error e =>
    obtain rfl | rfl := decodeCommand_error h
    · exact nomatch hop.symm.trans ((decodeCommand_illegal_iff op operands).1 h)
    · rfl

/-- Settles O4: the decoder follows the operand types of R72's table. -/
theorem operandListsFollowTheTable : Obligations.OperandListsFollowTheTable := by
  intro cfg op operands kinds hop
  refine ⟨fun hkinds => exists_decodeCommand_ok (hop.trans (congrArg some hkinds.symm)), fun hkinds s rest hinbox => ?_⟩
  rw [step_of_inbox_record hinbox]
  exact issueRecord_of_operandMismatch (decodeCommand_of_kinds_ne hop hkinds)

/-- The op bytes R72's table leaves out have no operand types (R73). -/
theorem operandKinds_eq_none {op : Byte}
    (h : op.toNat = 0 ∨ (0x06 ≤ op.toNat ∧ op.toNat ≤ 0x0F) ∨ 0x15 ≤ op.toNat) : operandKinds op = none := by
  fun_cases operandKinds op
  case case11 => rfl
  all_goals omega

/-- Settles O17: the decoder finds the op byte illegal, and the illegal command raises its fault. -/
theorem illegalOpRaisesFault : Obligations.IllegalOpRaisesFault := by
  intro s rest op operands hinbox hf hop
  have hdecode : decode s.cfg (.command op operands) = .error (.illegalOp op) :=
    (decodeCommand_illegal_iff op operands).2 (operandKinds_eq_none hop)
  rw [step_of_inbox_record hinbox]
  exact (issueRecord_of_illegalOp (s := { s with inbox := rest }) hdecode).trans (illegalCommand_healthy hf)

/-! ### The frame rows (log entry 3) -/

/-- The address checks let a legal target pass (R176). -/
theorem withLegalTarget_legal {addr reg : Byte} (haddr : legalAddr addr = true) (hreg : legalReg reg = true)
    (s : State) (body : State → Answer) : withLegalTarget addr reg s body = body s := by
  simp [withLegalTarget, haddr, hreg]

/-- READ_REQUEST in a healthy state: the read frame of its fields (R104). -/
theorem exec_readRequest_healthy (addr : BitVec 2) (reg : BitVec 7) (crc : Byte) {s : State} (hf : s.fault = 0) :
    exec (.readRequest addr reg crc) s =
      .next (s.respond .ok (.frame (readFrame s.cfg (addr.setWidth 8) (reg.setWidth 8)))) :=
  (prologue_healthy hf _).trans (withLegalTarget_legal (legalAddr_setWidth addr) (legalReg_setWidth reg) s _)

/-- WRITE_REQUEST in a healthy state: the write frame of its fields (R105). -/
theorem exec_writeRequest_healthy (addr : BitVec 2) (reg : BitVec 7) (value : U32) (crc : Byte) {s : State}
    (hf : s.fault = 0) :
    exec (.writeRequest addr reg value crc) s =
      .next (s.respond .ok (.frame (writeFrame s.cfg (addr.setWidth 8) (reg.setWidth 8) value))) := by
  refine (prologue_healthy hf _).trans ?_
  refine (withLegalTarget_legal (legalAddr_setWidth addr) (legalReg_setWidth reg) s _).trans ?_
  rw [BitVec.ofInt_toInt]

/-- Two request frames of one body are the same exactly when their last bytes are. -/
theorem request_concat_inj (body : List Byte) (b c : Byte) :
    Record.request (body ++ [b]) = .request (body ++ [c]) ↔ b = c := by
  rw [Record.request.injEq, List.append_cancel_left_eq, List.singleton_inj]

/-- Settles O39: the row's fields are a legal target, and its bytes are the frame's but for the checksum byte. -/
theorem readRequestRowBuildsItsFrame : Obligations.ReadRequestRowBuildsItsFrame := by
  intro addr reg c s hf
  simp only [BitVec.ofNat_toNat]
  exact ⟨exec_readRequest_healthy addr reg c hf, request_concat_inj [_, _, _] c _⟩

/-- Settles O40: the row's fields are a legal target, and its bytes are the frame's but for the checksum byte. -/
theorem writeRequestRowBuildsItsFrame : Obligations.WriteRequestRowBuildsItsFrame := by
  intro addr reg value c s hf body f
  have hbody : body = [s.cfg.syncByte, addr.setWidth 8, reg.setWidth 8 ||| writeFlag] ++ be32 value := by
    rw [be32_eq_ofNat, setWidth_or_writeFlag_eq_ofNat, ← BitVec.ofNat_toNat 8 addr]
    rfl
  have hframe : f = writeFrame s.cfg (addr.setWidth 8) (reg.setWidth 8) value := congrArg (sealFrame s.cfg) hbody
  have hrow : encode s.cfg (.writeRequest addr reg value c) = .request (body ++ [c]) := hbody ▸ rfl
  exact ⟨hframe ▸ exec_writeRequest_healthy addr reg value c hf, hrow ▸ request_concat_inj body c _⟩

/-- The signed reading of 32 bits (R10). -/
theorem toInt_eq_ite (u : U32) :
    u.toInt = if u.toNat < 2 ^ 31 then (u.toNat : Int) else (u.toNat : Int) - 2 ^ 32 := by
  rw [BitVec.toInt_eq_toNat_cond]
  split <;> split <;> omega

/-- The bytes of a reply under its checksum, as numbers (R77). -/
theorem replyBody_eq_ofNat (sync addr reg : Byte) (data : U32) :
    [sync, addr, reg] ++ be32 data =
      [sync, addr, reg, BitVec.ofNat 8 (data.toNat / 2 ^ 24), BitVec.ofNat 8 (data.toNat / 2 ^ 16),
        BitVec.ofNat 8 (data.toNat / 2 ^ 8), BitVec.ofNat 8 data.toNat] := by
  rw [be32_eq_ofNat]
  rfl

/-- REPLY in a healthy state: its two verdicts (R77, R108). -/
theorem exec_reply_healthy (sync addr reg : Byte) (data : U32) (crc : Byte) {s : State} (hf : s.fault = 0) :
    exec (.reply sync addr reg data crc) s =
      .next { s with responses := s.responses ++
        [if crc = crc8 s.cfg.crcOrder ([sync, addr, reg] ++ be32 data) then ⟨.ok, .datum data.toInt⟩
          else ⟨.checksumMismatch, .none⟩] } := by
  simp only [exec, execReply, prologue_healthy hf]
  split <;> rfl

/-- Settles O41: the checksum's two outcomes, the body and the datum written on numbers. -/
theorem replyRowChecksAndExtracts : Obligations.ReplyRowChecksAndExtracts := by
  intro y a g data c s hf body
  rw [exec_reply_healthy y a g data c hf, replyBody_eq_ofNat, toInt_eq_ite]

/-- Four zero bytes are the value 0. -/
theorem be32_all_zero_iff (u : U32) : (be32 u).all (· == 0) = true ↔ u = 0 := by
  refine ⟨fun h => ?_, fun h => h ▸ rfl⟩
  simp only [be32, List.all_cons, List.all_nil, Bool.and_true, Bool.and_eq_true, beq_iff_eq] at h
  obtain ⟨h3, h2, h1, h0⟩ := h
  rw [← ofBe32_extract u, h3, h2, h1, h0]
  rfl

/-- The verdict on the bytes of a READBACK row, by its fields (R78, R107). -/
theorem readbackResponse_row (order : BitOrder) (echo : U32) (sync addr reg : Byte) (data : U32) (crc : Byte) :
    readbackResponse order (be32 echo ++ [sync, addr, reg] ++ be32 data ++ [crc]) =
      if echo = 0 ∧ sync = 0 ∧ addr = 0 ∧ reg = 0 ∧ data = 0 ∧ crc = 0 then ⟨.shortReply, .none⟩
      else if crc ≠ crc8 order ([sync, addr, reg] ++ be32 data) then ⟨.checksumMismatch, .none⟩
      else ⟨.ok, .datum data.toInt⟩ := by
  generalize hbs : be32 echo ++ [sync, addr, reg] ++ be32 data ++ [crc] = bs
  have hlength : bs.length = readbackLen := hbs ▸ rfl
  have hzero : bs.all (· == 0) = true ↔ echo = 0 ∧ sync = 0 ∧ addr = 0 ∧ reg = 0 ∧ data = 0 ∧ crc = 0 := by
    simp only [← hbs, List.all_append, List.all_cons, List.all_nil, Bool.and_eq_true, Bool.and_true, beq_iff_eq,
      be32_all_zero_iff, and_assoc]
  have hbody : slice bs 4 11 = [sync, addr, reg] ++ be32 data := hbs ▸ rfl
  have hcrc : byteAt bs 11 = crc := hbs ▸ rfl
  have hdatum : ofBe32 (byteAt bs 7) (byteAt bs 8) (byteAt bs 9) (byteAt bs 10) = data := hbs ▸ ofBe32_extract data
  simp only [readbackResponse, hlength, ne_eq, not_true_eq_false, if_false, hzero, hbody, hcrc, hdatum]

/-- READBACK in a healthy state: its three verdicts (R78, R107). -/
theorem exec_readback_healthy (echo : U32) (sync addr reg : Byte) (data : U32) (crc : Byte) {s : State}
    (hf : s.fault = 0) :
    exec (.readback echo sync addr reg data crc) s =
      .next { s with responses := s.responses ++
        [if echo = 0 ∧ sync = 0 ∧ addr = 0 ∧ reg = 0 ∧ data = 0 ∧ crc = 0 then ⟨.shortReply, .none⟩
          else if crc ≠ crc8 s.cfg.crcOrder ([sync, addr, reg] ++ be32 data) then ⟨.checksumMismatch, .none⟩
          else ⟨.ok, .datum data.toInt⟩] } := by
  refine (prologue_healthy hf _).trans ?_
  rw [judgeReadback_eq, readbackResponse_row]

/-- Settles O42: the verdict on the row's bytes; with an echo that is not zero only its checksum verdicts are left. -/
theorem readbackRowIsJudged : Obligations.ReadbackRowIsJudged := by
  intro e y a g data c s hf body
  refine ⟨?_, fun bs hbs => ?_, fun he => ?_⟩
  · rw [exec_readback_healthy e y a g data c hf, replyBody_eq_ofNat, toInt_eq_ite]
  · obtain rfl := Record.received.inj hbs
    rfl
  · rw [exec_readback_healthy e y a g data c hf, exec_reply_healthy y a g data c hf, if_neg fun h => he h.1, ite_not]

/-! ### Words of the table, pseudo-commands and assembler text -/

/-- Settles O3: each word is placed, decoded and found. -/
theorem tableWordsDecode : Obligations.TableWordsDecode := by
  unfold Obligations.TableWordsDecode
  decide +kernel

/-- Settles O5: by the definition of the expansion, CHECK_WRITE_ECHO by its number of bytes. -/
theorem pseudoCommandsExpand : Obligations.PseudoCommandsExpand :=
  ⟨rfl, fun _ => rfl, fun _ _ => rfl, fun _ => ⟨fun h => if_pos h, fun h => if_neg h⟩, rfl⟩

/-- Settles O6: each line is read by the assembler. -/
theorem assemblerLinesRead : Obligations.AssemblerLinesRead := by
  unfold Obligations.AssemblerLinesRead
  decide +kernel

/-- Settles O8: the placed word stands at the front of the inbox, and taking it leaves the state it was placed in. -/
theorem placedWordRuns : Obligations.PlacedWordRuns := by
  intro s nbits w i hdecode
  exact stepRunsTheDecodedRecord (s.withFetchWord nbits w) _ s.inbox i rfl hdecode

end Sys2Proof.Machine

namespace Sys2Proof.Machine

/-! ### The CRC-8 (R101, R102) -/

/-- The CRC of one byte is one turn of the outer loop from 0. -/
theorem crc8_singleton (order : BitOrder) (b : Byte) : crc8 order [b] = crcByte order 0 b := rfl

/-- One turn of the inner loop on numbers: the polynomial enters when the two bits differ. -/
theorem crcStep_eq_ofNat (b c : Byte) (i : Nat) :
    crcStep b c i =
      if c.toNat / 128 % 2 = b.toNat / 2 ^ i % 2 then BitVec.ofNat 8 (2 * c.toNat % 256)
      else BitVec.ofNat 8 (2 * c.toNat % 256 ^^^ 7) := by
  have hshift : c <<< 1 = BitVec.ofNat 8 (2 * c.toNat % 256) := by
    apply BitVec.eq_of_toNat_eq
    simp only [BitVec.toNat_shiftLeft, BitVec.toNat_ofNat, Nat.shiftLeft_eq]
    omega
  have hfeedback : (c.getLsbD 7).xor (b.getLsbD i) = true ↔ ¬c.toNat / 128 % 2 = b.toNat / 2 ^ i % 2 := by
    simp only [BitVec.getLsbD, Nat.testBit_eq_decide_div_mod_eq, bne_iff_ne, ne_eq, decide_eq_decide]
    omega
  simp only [crcStep, hfeedback, ite_not, hshift, BitVec.ofNat_xor]
  rfl

/-- Settles O26: a byte more is one turn of the outer loop, whose inner turns are written on numbers. -/
theorem crcIsBitSerial : Obligations.CrcIsBitSerial := by
  intro order bs b
  refine ⟨rfl, ?_, by decide +kernel⟩
  rw [crc8_concat]
  simp only [← crcStep_eq_ofNat]
  cases order <;> rfl

/-- The byte whose bits cancel the feedback of the CRC `c`, in the order in which they enter. -/
def cancellingByte : BitOrder → Byte → Byte
  | .msbFirst, c => c
  | .lsbFirst, c => c.reverse

/-- Every byte cancels the feedback of some CRC. -/
theorem cancellingByte_surjective (order : BitOrder) : Function.Surjective (cancellingByte order) := by
  cases order with
  | msbFirst => exact fun b => ⟨b, rfl⟩
  | lsbFirst => exact fun b => ⟨b.reverse, BitVec.reverse_reverse_eq⟩

theorem crcBits_length (order : BitOrder) : (crcBits order).length = 8 := by
  cases order <;> rfl

/-- While the bits that enter are those that leave, the CRC is only shifted. -/
theorem crcStep_of_cancels {b c : Byte} {i k : Nat} (hk : k < 8) (h : b.getLsbD i = c.getLsbD (7 - k)) :
    crcStep b (c <<< k) i = c <<< (k + 1) := by
  have hleaves : (c <<< k).getLsbD 7 = b.getLsbD i := by
    rw [h, BitVec.getLsbD_shiftLeft, decide_eq_false (by omega : ¬7 < k)]
    rfl
  simp only [crcStep, hleaves, bne_self_eq_false, Bool.false_eq_true, if_false, BitVec.shiftLeft_add]

/-- The bits of the cancelling byte enter in the order in which those of the CRC leave. -/
theorem cancellingByte_getLsbD (order : BitOrder) (c : Byte) {k : Nat} (hk : k < (crcBits order).length) :
    (cancellingByte order c).getLsbD (crcBits order)[k] = c.getLsbD (7 - k) := by
  cases order with
  | msbFirst =>
    have hbit : (crcBits .msbFirst)[k] = 7 - k := by
      revert k
      decide
    rw [hbit]
    rfl
  | lsbFirst =>
    have hbit : (crcBits .lsbFirst)[k] = k := by
      revert k
      decide
    rw [hbit, cancellingByte, BitVec.getLsbD_reverse, BitVec.getMsbD]
    rw [decide_eq_true (crcBits_length .lsbFirst ▸ hk), Bool.true_and]

/-- The first `k` bits of the cancelling byte shift the CRC by `k`. -/
theorem foldl_crcStep_cancellingByte (order : BitOrder) (c : Byte) {k : Nat} (hk : k ≤ (crcBits order).length) :
    ((crcBits order).take k).foldl (crcStep (cancellingByte order c)) c = c <<< k := by
  induction k with
  | zero => simp
  | succ k ih =>
    rw [List.take_succ_eq_append_getElem hk, List.foldl_append, ih (Nat.le_of_succ_le hk)]
    exact crcStep_of_cancels (crcBits_length order ▸ hk) (cancellingByte_getLsbD order c hk)

/-- A byte that cancels the feedback takes the CRC to 0: every bit of the CRC is shifted out. -/
theorem crcByte_cancellingByte (order : BitOrder) (c : Byte) : crcByte order c (cancellingByte order c) = 0 := by
  have h := foldl_crcStep_cancellingByte order c le_rfl
  rw [List.take_length, crcBits_length] at h
  exact h.trans (BitVec.shiftLeft_eq_zero le_rfl)

/-- A byte enters the CRC as what is left of it once the feedback is cancelled. -/
theorem crcByte_eq_crc8_singleton (order : BitOrder) (c b : Byte) :
    crcByte order c b = crc8 order [cancellingByte order c ^^^ b] := by
  have h := crcByte_xor order c 0 (cancellingByte order c) (cancellingByte order c ^^^ b)
  simpa [crc8_singleton, crcByte_cancellingByte] using h

/-- The CRC by the table of one-byte CRCs, each read at the byte less the feedback (R102 (c), log entry 14). -/
theorem crc8_eq_table (order : BitOrder) (bs : List Byte) :
    crc8 order bs = bs.foldl (fun c b => crc8 order [cancellingByte order c ^^^ b]) 0 := by
  simp only [← crcByte_eq_crc8_singleton]
  rfl

/-- Settles O28: the table form with the feedback cancelled in each order; LSB first, a table would have to give the CRC
of `01 00` as that of `89`, the CRC of `01`. -/
theorem crcTableForm : Obligations.CrcTableForm := by
  refine ⟨crc8_eq_table .msbFirst, by decide +kernel, crc8_eq_table .lsbFirst, fun T => ?_⟩
  by_contra! hT
  have h1 : 0x89 = T 0x01 := hT [0x01]
  have h2 : 0xFE = T 0x89 := hT [0x89]
  have h3 : 0xB6 = T (T 0x01 ^^^ 0x00) := hT [0x01, 0x00]
  rw [← h1] at h3
  exact absurd (h3.trans h2.symm) (by decide)

/-- Settles O27: MSB first the CRC is its own cancelling byte; LSB first the byte `01` fails. -/
theorem crcResidueIsZero : Obligations.CrcResidueIsZero := by
  refine ⟨fun bs => ?_, [0x01], by decide +kernel⟩
  rw [crc8_concat]
  exact crcByte_cancellingByte .msbFirst _

/-- The outer loop is linear in the CRC and bytes of equal number together. -/
theorem foldl_crcByte_xor (order : BitOrder) {a b : List Byte} (h : a.length = b.length) (c₁ c₂ : Byte) :
    (List.zipWith (· ^^^ ·) a b).foldl (crcByte order) (c₁ ^^^ c₂) =
      a.foldl (crcByte order) c₁ ^^^ b.foldl (crcByte order) c₂ := by
  induction a generalizing b c₁ c₂ with
  | nil =>
    obtain rfl := List.length_eq_zero_iff.1 h.symm
    rfl
  | cons x a ih =>
    obtain ⟨y, b, rfl⟩ := List.exists_cons_of_length_eq_add_one h.symm
    simp only [List.zipWith_cons_cons, List.foldl_cons, crcByte_xor]
    exact ih (Nat.succ.inj h) _ _

/-- Settles O29: the outer loop is linear, and it starts from 0. -/
theorem crcIsLinear : Obligations.CrcIsLinear :=
  fun order _ _ h => foldl_crcByte_xor order h crcInit crcInit

/-! ### One changed byte changes the CRC (R102 (e)) -/

/-- A turn of the inner loop that comes to 0 started from 0: where the polynomial enters, its bit 0 stays set. -/
theorem eq_zero_of_crcStep_eq_zero {c : Byte} {i : Nat} (h : crcStep 0 c i = 0) : c = 0 := by
  have hzero : (0 : Byte).toNat / 2 ^ i % 2 = 0 := by simp
  rw [crcStep_eq_ofNat, hzero] at h
  apply BitVec.eq_of_toNat_eq
  split at h
  · have h := congrArg BitVec.toNat h
    simp only [BitVec.ofNat_eq_ofNat, BitVec.toNat_ofNat] at h ⊢
    omega
  · rw [BitVec.ofNat_xor] at h
    have h := congrArg BitVec.toNat (BitVec.xor_eq_zero_iff.1 h)
    simp only [BitVec.toNat_ofNat] at h
    omega

/-- A turn of the inner loop takes different CRCs to different CRCs. -/
theorem crcStep_injective (b : Byte) (i : Nat) : Function.Injective (crcStep b · i) := by
  intro c₁ c₂ h
  have hdiff := crcStep_xor b b c₁ c₂ i
  rw [BitVec.xor_self, show crcStep b c₁ i = crcStep b c₂ i from h, BitVec.xor_self] at hdiff
  exact BitVec.xor_eq_zero_iff.1 (eq_zero_of_crcStep_eq_zero hdiff)

/-- A byte takes different CRCs to different CRCs. -/
theorem crcByte_injective_left (order : BitOrder) (b : Byte) : Function.Injective (crcByte order · b) := by
  unfold crcByte
  induction crcBits order with
  | nil => exact fun _ _ h => h
  | cons i is ih => exact ih.comp (crcStep_injective b i)

/-- A byte enters the CRC as the feedback that it would cancel. -/
theorem crcByte_eq_of_cancels (order : BitOrder) (c d : Byte) :
    crcByte order c (cancellingByte order d) = crcByte order (c ^^^ d) 0 := by
  have h := crcByte_xor order (c ^^^ d) d 0 (cancellingByte order d)
  simpa [BitVec.xor_assoc, crcByte_cancellingByte] using h

/-- Different bytes take a CRC to different CRCs. -/
theorem crcByte_injective_right (order : BitOrder) (c : Byte) : Function.Injective (crcByte order c) := by
  intro b₁ b₂ h
  obtain ⟨d₁, rfl⟩ := cancellingByte_surjective order b₁
  obtain ⟨d₂, rfl⟩ := cancellingByte_surjective order b₂
  rw [crcByte_eq_of_cancels, crcByte_eq_of_cancels] at h
  exact congrArg _ ((BitVec.xor_right_inj c).1 (crcByte_injective_left order 0 h))

/-- The outer loop takes different CRCs to different CRCs. -/
theorem foldl_crcByte_injective (order : BitOrder) (bs : List Byte) :
    Function.Injective (bs.foldl (crcByte order)) := by
  induction bs with
  | nil => exact fun _ _ h => h
  | cons b bs ih => exact ih.comp (crcByte_injective_left order b)

/-- Different bytes at one offset give different CRCs. -/
theorem crc8_set_injective (order : BitOrder) {bs : List Byte} {k : Nat} (hk : k < bs.length) :
    Function.Injective fun b => crc8 order (bs.set k b) := by
  intro b₁ b₂ h
  simp only [List.set_eq_take_append_cons_drop, if_pos hk, crc8_append, List.foldl_cons] at h
  exact crcByte_injective_right order _ (foldl_crcByte_injective order _ h)

/-- Another byte at one offset gives another CRC. -/
theorem crc8_set_ne (order : BitOrder) {bs : List Byte} {k : Nat} (hk : k < bs.length) {b : Byte} (hb : b ≠ bs[k]) :
    crc8 order (bs.set k b) ≠ crc8 order bs := by
  intro h
  refine hb (crc8_set_injective order hk (h.trans (congrArg _ ?_)))
  exact (List.set_getElem_self hk).symm

/-! ### CRC8 and CHECK_FRAME (R103, R106) -/

/-- CRC8 in a healthy state (R103). -/
theorem exec_crc8_healthy (bs : List Byte) {s : State} (hf : s.fault = 0) :
    exec (.crc8 bs) s = .next (s.respond .ok (.crc (crc8 s.cfg.crcOrder bs))) := by
  simp only [exec, execCrc8, prologue_healthy hf]

/-- Zero bytes leave the CRC 0. -/
theorem crc8_replicate_zero (order : BitOrder) (n : Nat) : crc8 order (List.replicate n 0) = 0 := by
  induction n with
  | zero => rfl
  | succ n ih =>
    rw [List.replicate_succ', crc8_concat, ih]
    cases order <;> decide

/-- Settles O31: CRC8's own effect, zero bytes, and the rule's example. -/
theorem crc8Responds : Obligations.Crc8Responds :=
  ⟨fun bs _ hf => exec_crc8_healthy bs hf, crc8_replicate_zero, by decide +kernel⟩

/-- CHECK_FRAME of no bytes in a healthy state (R106). -/
theorem exec_checkFrame_nil {s : State} (hf : s.fault = 0) : exec (.checkFrame []) s = .next (s.raise .badLength) := by
  simp only [exec, execCheckFrame, prologue_healthy hf, List.length_nil, if_true]

/-- The verdict on a body and the byte after it (R106). -/
theorem frameChecks_concat (order : BitOrder) (body : List Byte) (c : Byte) :
    frameChecks order (body ++ [c]) = true ↔ c = crc8 order body := by
  simp [frameChecks, byteAt, slice]

/-- CHECK_FRAME of a body and the byte after it in a healthy state (R106). -/
theorem exec_checkFrame_concat (body : List Byte) (c : Byte) {s : State} (hf : s.fault = 0) :
    exec (.checkFrame (body ++ [c])) s =
      .next { s with responses := s.responses ++
        [if c = crc8 s.cfg.crcOrder body then ⟨.ok, .bit true⟩ else ⟨.checksumMismatch, .bit false⟩] } := by
  simp only [exec, execCheckFrame, prologue_healthy hf, frameChecks_concat, List.length_append, List.length_singleton,
    Nat.add_one_ne_zero, if_false]
  split <;> rfl

/-- Settles O35: the fault on no bytes, and the verdict on the last byte. -/
theorem checkFrameComparesTheTrailingByte : Obligations.CheckFrameComparesTheTrailingByte :=
  ⟨fun _ hf => exec_checkFrame_nil hf, fun body c _ hf => exec_checkFrame_concat body c hf⟩

/-- CHECK_FRAME refuses a sealed body whose byte at one offset is another (R102 (e)). -/
theorem exec_checkFrame_changed {s : State} (hf : s.fault = 0) (body : List Byte) {k : Nat} (hk : k ≤ body.length)
    {b : Byte} (hb : b ≠ byteAt (sealFrame s.cfg body) k) :
    exec (.checkFrame ((sealFrame s.cfg body).set k b)) s =
      .next { s with responses := s.responses ++ [⟨.checksumMismatch, .bit false⟩] } := by
  unfold sealFrame at hb ⊢
  obtain hk | rfl := hk.lt_or_eq
  · have hbyte : byteAt (body ++ [crc8 s.cfg.crcOrder body]) k = body[k] := by
      simp [byteAt, List.getElem?_append_left hk, hk]
    rw [List.set_append_left _ _ hk, exec_checkFrame_concat _ _ hf,
      if_neg (crc8_set_ne s.cfg.crcOrder hk (hbyte ▸ hb)).symm]
  · have hbyte : byteAt (body ++ [crc8 s.cfg.crcOrder body]) body.length = crc8 s.cfg.crcOrder body := by
      simp [byteAt]
    rw [List.set_append_right _ _ le_rfl, Nat.sub_self, List.set_cons_zero, exec_checkFrame_concat _ _ hf,
      if_neg (hbyte ▸ hb)]

/-- Settles O30: a changed bit changes its byte, and CHECK_FRAME refuses any changed byte. -/
theorem singleBitErrorsAreDetected : Obligations.SingleBitErrorsAreDetected := by
  intro s body k i hf hbody hk hi f
  have hbit : ∀ i < 8, BitVec.ofNat 8 (2 ^ i) ≠ 0 := by decide
  refine exec_checkFrame_changed hf body (by omega) fun h => hbit i hi ?_
  exact (BitVec.xor_right_inj (byteAt f k)).1 (h.trans BitVec.xor_zero.symm)

/-! ### The encode commands (R104, R105, R109) -/

/-- The address check refuses an address of 4 or more, whatever the register (R176). -/
theorem withLegalTarget_of_badAddr {addr : Byte} (haddr : 4 ≤ addr.toNat) (reg : Byte) (s : State)
    (body : State → Answer) : withLegalTarget addr reg s body = .next (s.raise .badDriverAddr) := by
  obtain ⟨-, h⟩ | ⟨hlegal, -, -⟩ | ⟨hlegal, -, -⟩ := withLegalTarget_cases addr reg s body
  · exact h
  · exact absurd haddr hlegal.not_ge
  · exact absurd haddr hlegal.not_ge

/-- The register check refuses a register of 0x80 or more at a legal address (R176). -/
theorem withLegalTarget_of_badReg {addr reg : Byte} (haddr : addr.toNat < 4) (hreg : 0x80 ≤ reg.toNat) (s : State)
    (body : State → Answer) : withLegalTarget addr reg s body = .next (s.raise .badRegister) := by
  obtain ⟨hbad, -⟩ | ⟨-, -, h⟩ | ⟨-, hlegal, -⟩ := withLegalTarget_cases addr reg s body
  · exact absurd hbad haddr.not_ge
  · exact h
  · exact absurd hreg hlegal.not_ge

/-- ENCODE_READ in a healthy state is its address checks and the read frame (R104). -/
theorem exec_encodeRead_healthy (addr reg : Byte) {s : State} (hf : s.fault = 0) :
    exec (.encodeRead addr reg) s = buildRead addr reg s := by
  simp only [exec, execEncodeRead, prologue_healthy hf]

/-- ENCODE_WRITE in a healthy state is its address checks and the write frame (R105). -/
theorem exec_encodeWrite_healthy (addr reg : Byte) (value : Int) {s : State} (hf : s.fault = 0) :
    exec (.encodeWrite addr reg value) s = buildWrite addr reg value s := by
  simp only [exec, execEncodeWrite, prologue_healthy hf]

/-- ENCODE_READ of a legal target (R104). -/
theorem exec_encodeRead_legal {addr reg : Byte} {s : State} (hf : s.fault = 0) (haddr : addr.toNat < 4)
    (hreg : reg.toNat < 0x80) :
    exec (.encodeRead addr reg) s = .next (s.respond .ok (.frame (readFrame s.cfg addr reg))) :=
  (exec_encodeRead_healthy addr reg hf).trans
    (withLegalTarget_legal ((legalAddr_iff addr).2 haddr) ((legalReg_iff reg).2 hreg) s _)

/-- ENCODE_WRITE of a legal target (R105). -/
theorem exec_encodeWrite_legal {addr reg : Byte} (value : Int) {s : State} (hf : s.fault = 0) (haddr : addr.toNat < 4)
    (hreg : reg.toNat < 0x80) :
    exec (.encodeWrite addr reg value) s =
      .next (s.respond .ok (.frame (writeFrame s.cfg addr reg (BitVec.ofInt 32 value)))) :=
  (exec_encodeWrite_healthy addr reg value hf).trans
    (withLegalTarget_legal ((legalAddr_iff addr).2 haddr) ((legalReg_iff reg).2 hreg) s _)

/-- Settles O32: the address checks in their order, then the read frame. -/
theorem encodeReadBuildsItsFrame : Obligations.EncodeReadBuildsItsFrame := by
  intro addr reg s hf
  refine ⟨fun haddr => ?_, fun haddr hreg => ?_, fun haddr hreg => exec_encodeRead_legal hf haddr hreg⟩
  · exact (exec_encodeRead_healthy addr reg hf).trans (withLegalTarget_of_badAddr haddr reg s _)
  · exact (exec_encodeRead_healthy addr reg hf).trans (withLegalTarget_of_badReg haddr hreg s _)

/-- The register byte of a write frame as a number (R76). -/
theorem or_writeFlag_eq_ofNat {reg : Byte} (h : legalReg reg = true) :
    reg ||| writeFlag = BitVec.ofNat 8 (reg.toNat + 0x80) := by
  have hbits := setWidth_or_writeFlag_eq_ofNat (reg.setWidth 7)
  have hnumber : (reg.setWidth 7).toNat = reg.toNat := by
    have hreg := (legalReg_iff reg).1 h
    rw [BitVec.toNat_setWidth]
    omega
  rwa [setWidth_setWidth_of_legalReg h, hnumber] at hbits

/-- Settles O33: the address checks in their order, then the write frame with its fields written on numbers. -/
theorem encodeWriteBuildsItsFrame : Obligations.EncodeWriteBuildsItsFrame := by
  intro addr reg value s hf
  refine ⟨fun haddr => ?_, fun haddr hreg => ?_, ?_⟩
  · exact (exec_encodeWrite_healthy addr reg value hf).trans (withLegalTarget_of_badAddr haddr reg s _)
  · exact (exec_encodeWrite_healthy addr reg value hf).trans (withLegalTarget_of_badReg haddr hreg s _)
  · intro haddr hreg u body
    have hbody : body = [s.cfg.syncByte, addr, reg ||| writeFlag] ++ be32 (BitVec.ofInt 32 value) := by
      rw [be32_eq_ofNat, or_writeFlag_eq_ofNat ((legalReg_iff reg).2 hreg), BitVec.toNat_ofInt]
      rfl
    rw [exec_encodeWrite_legal value hf haddr hreg, hbody]
    rfl

/-- A sealed body ends with the CRC of the rest. -/
theorem sealFrame_getLast? (cfg : Config) (body : List Byte) :
    (sealFrame cfg body).getLast? = some (crc8 cfg.crcOrder (sealFrame cfg body).dropLast) := by
  simp [sealFrame]

/-- A sealed body passes CHECK_FRAME (R106). -/
theorem exec_checkFrame_sealFrame (body : List Byte) {s : State} (hf : s.fault = 0) :
    exec (.checkFrame (sealFrame s.cfg body)) s = .next { s with responses := s.responses ++ [⟨.ok, .bit true⟩] } := by
  rw [sealFrame, exec_checkFrame_concat _ _ hf, if_pos rfl]

/-- The data bytes of a write frame make up its value. -/
theorem writeFrame_data_toNat (cfg : Config) (addr reg : Byte) (u : U32) :
    (byteAt (writeFrame cfg addr reg u) 3).toNat * 2 ^ 24 + (byteAt (writeFrame cfg addr reg u) 4).toNat * 2 ^ 16 +
      (byteAt (writeFrame cfg addr reg u) 5).toNat * 2 ^ 8 + (byteAt (writeFrame cfg addr reg u) 6).toNat =
      u.toNat := by
  rw [← ofBe32_toNat]
  exact congrArg BitVec.toNat (ofBe32_extract u)

/-- A value reduced to 32 bits, read as a signed number (R10). -/
theorem toInt_ofInt_eq_ite (value : Int) :
    (BitVec.ofInt 32 value).toInt =
      if value % 2 ^ 32 < 2 ^ 31 then value % 2 ^ 32 else value % 2 ^ 32 - 2 ^ 32 := by
  have hvalue : ((BitVec.ofInt 32 value).toNat : Int) = value % 2 ^ 32 := by
    rw [BitVec.toNat_ofInt]
    omega
  rw [toInt_eq_ite, ← hvalue]
  norm_cast

/-- Settles O34: both frames are sealed bodies, and the write frame's data bytes are those of the value. -/
theorem encodedFramesPassTheirCheck : Obligations.EncodedFramesPassTheirCheck := by
  intro addr reg value s hf haddr hreg
  refine ⟨⟨_, _, exec_encodeRead_legal hf haddr hreg, rfl, sealFrame_getLast? s.cfg _, ?_⟩,
    ⟨_, _, exec_encodeWrite_legal value hf haddr hreg, rfl, sealFrame_getLast? s.cfg _, ?_, ?_, ?_⟩⟩
  · exact exec_checkFrame_sealFrame _ (s := s.respond _ _) hf
  · exact exec_checkFrame_sealFrame _ (s := s.respond _ _) hf
  · show (reg ||| writeFlag).getLsbD 7 = true
    simp [writeFlag]
  · simp only [writeFrame_data_toNat, ← toInt_eq_ite, toInt_ofInt_eq_ite]

/-! ### VALIDATE_READBACK (R107) -/

/-- VALIDATE_READBACK in a healthy state: the verdict is its one response. -/
theorem exec_validateReadback_healthy (bs : List Byte) {s : State} (hf : s.fault = 0) :
    exec (.validateReadback bs) s =
      .next { s with responses := s.responses ++ [readbackResponse s.cfg.crcOrder bs] } := by
  simp only [exec, execValidateReadback, prologue_healthy hf, judgeReadback_eq]

/-- Four bytes make up 0 exactly when they are zeros. -/
theorem ofBe32_eq_zero_iff (b3 b2 b1 b0 : Byte) : ofBe32 b3 b2 b1 b0 = 0 ↔ b3 = 0 ∧ b2 = 0 ∧ b1 = 0 ∧ b0 = 0 := by
  rw [← be32_all_zero_iff, be32_ofBe32]
  simp

/-- Settles O36: the verdict by length, and on 12 bytes that of the READBACK row they make up. -/
theorem readbackVerdict : Obligations.ReadbackVerdict := by
  refine ⟨fun bs s hf hlength => ?_, ?_⟩
  · rw [exec_validateReadback_healthy bs hf, readbackResponse,
      if_pos (show bs.length ≠ readbackLen from hlength)]
  · intro e0 e1 e2 e3 y a g d3 d2 d1 d0 c s hf bs u
    have hrow := readbackResponse_row s.cfg.crcOrder (ofBe32 e0 e1 e2 e3) y a g (ofBe32 d3 d2 d1 d0) c
    have hzero : bs = List.replicate 12 0 ↔
        ofBe32 e0 e1 e2 e3 = 0 ∧ y = 0 ∧ a = 0 ∧ g = 0 ∧ ofBe32 d3 d2 d1 d0 = 0 ∧ c = 0 := by
      rw [ofBe32_eq_zero_iff, ofBe32_eq_zero_iff]
      simp [bs, List.replicate, and_assoc]
    simp only [be32_ofBe32, toInt_eq_ite, ofBe32_toNat, ← hzero] at hrow
    rw [exec_validateReadback_healthy bs hf]
    exact congrArg (fun r => Host.Outcome.next { s with responses := s.responses ++ [r] }) hrow

/-! ### What the FC unit reads and writes (R110, R111) -/

/-- The fault and the parameters of the state decide which fault is latched after `meaning` and which response it
returns; it changes nothing else. -/
def ReadsFaultAndCfg (meaning : State → Answer) : Prop :=
  ∀ (fault : Byte) (cfg : Config), ∃ (f : Byte) (r : Response), ∀ s : State, s.fault = fault → s.cfg = cfg →
    meaning s = .next { s with fault := f, responses := s.responses ++ [r] }

theorem readsFaultAndCfg_respond (r : Config → Response) :
    ReadsFaultAndCfg fun s => .next (s.respond (r s.cfg).status (r s.cfg).result) := by
  refine fun fault cfg => ⟨fault, r cfg, ?_⟩
  rintro s rfl rfl
  rfl

theorem readsFaultAndCfg_raise (c : FaultCode) : ReadsFaultAndCfg fun s => .next (s.raise c) :=
  fun _ _ => ⟨c.code, ⟨.faulted, .code c.code⟩, fun _ _ _ => rfl⟩

/-- A branch on the parameters reads nothing more. -/
theorem readsFaultAndCfg_ite (p : Config → Prop) [DecidablePred p] {a b : State → Answer} (ha : ReadsFaultAndCfg a)
    (hb : ReadsFaultAndCfg b) : ReadsFaultAndCfg fun s => if p s.cfg then a s else b s := by
  intro fault cfg
  by_cases hp : p cfg
  · obtain ⟨f, r, h⟩ := ha fault cfg
    exact ⟨f, r, fun s hfault hcfg => (if_pos (hcfg ▸ hp)).trans (h s hfault hcfg)⟩
  · obtain ⟨f, r, h⟩ := hb fault cfg
    exact ⟨f, r, fun s hfault hcfg => (if_neg (hcfg ▸ hp)).trans (h s hfault hcfg)⟩

/-- The prologue reads the fault only (R173). -/
theorem readsFaultAndCfg_prologue {body : State → Answer} (h : ReadsFaultAndCfg body) :
    ReadsFaultAndCfg fun s => prologue s body := by
  intro fault cfg
  by_cases hf : fault = 0
  · obtain ⟨f, r, hbody⟩ := h fault cfg
    exact ⟨f, r, fun s hfault hcfg => (prologue_healthy (hfault.trans hf) body).trans (hbody s hfault hcfg)⟩
  · refine ⟨fault, ⟨.faulted, .code fault⟩, ?_⟩
    rintro s rfl -
    exact prologue_latched hf body

/-- The address checks read no state (R176). -/
theorem readsFaultAndCfg_withLegalTarget (addr reg : Byte) {body : State → Answer} (h : ReadsFaultAndCfg body) :
    ReadsFaultAndCfg fun s => withLegalTarget addr reg s body :=
  readsFaultAndCfg_ite (fun _ => legalAddr addr = false) (readsFaultAndCfg_raise _)
    (readsFaultAndCfg_ite (fun _ => legalReg reg = false) (readsFaultAndCfg_raise _) h)

theorem buildRead_readsFaultAndCfg (addr reg : Byte) : ReadsFaultAndCfg (buildRead addr reg) :=
  readsFaultAndCfg_withLegalTarget addr reg (readsFaultAndCfg_respond fun cfg => ⟨.ok, .frame (readFrame cfg addr reg)⟩)

theorem buildWrite_readsFaultAndCfg (addr reg : Byte) (value : Int) :
    ReadsFaultAndCfg (buildWrite addr reg value) :=
  readsFaultAndCfg_withLegalTarget addr reg
    (readsFaultAndCfg_respond fun cfg => ⟨.ok, .frame (writeFrame cfg addr reg (BitVec.ofInt 32 value))⟩)

theorem judgeReadback_readsFaultAndCfg (bs : List Byte) : ReadsFaultAndCfg (judgeReadback bs) :=
  readsFaultAndCfg_respond fun cfg => readbackResponse cfg.crcOrder bs

theorem execCrc8_readsFaultAndCfg (bs : List Byte) : ReadsFaultAndCfg (execCrc8 bs) :=
  readsFaultAndCfg_prologue (readsFaultAndCfg_respond fun cfg => ⟨.ok, .crc (crc8 cfg.crcOrder bs)⟩)

theorem execCheckFrame_readsFaultAndCfg (bs : List Byte) : ReadsFaultAndCfg (execCheckFrame bs) :=
  readsFaultAndCfg_prologue (readsFaultAndCfg_ite (fun _ => bs.length = 0) (readsFaultAndCfg_raise _)
    (readsFaultAndCfg_ite (fun cfg => frameChecks cfg.crcOrder bs = true)
      (readsFaultAndCfg_respond fun _ => ⟨.ok, .bit true⟩)
      (readsFaultAndCfg_respond fun _ => ⟨.checksumMismatch, .bit false⟩)))

theorem execReply_readsFaultAndCfg (sync addr reg : Byte) (data : U32) (crc : Byte) :
    ReadsFaultAndCfg (execReply sync addr reg data crc) :=
  readsFaultAndCfg_prologue
    (readsFaultAndCfg_ite (fun cfg => crc = Machine.crc8 cfg.crcOrder ([sync, addr, reg] ++ be32 data))
      (readsFaultAndCfg_respond fun _ => ⟨.ok, .datum data.toInt⟩)
      (readsFaultAndCfg_respond fun _ => ⟨.checksumMismatch, .none⟩))

/-- Every FC instruction reads the fault and the parameters only. -/
theorem exec_readsFaultAndCfg {i : Instr} (h : isCodec i = true) : ReadsFaultAndCfg (exec i) := by
  cases i with
  | crc8 bs => exact execCrc8_readsFaultAndCfg bs
  | encodeRead addr reg => exact readsFaultAndCfg_prologue (buildRead_readsFaultAndCfg _ _)
  | encodeWrite addr reg value => exact readsFaultAndCfg_prologue (buildWrite_readsFaultAndCfg _ _ _)
  | checkFrame bs => exact execCheckFrame_readsFaultAndCfg bs
  | validateReadback bs => exact readsFaultAndCfg_prologue (judgeReadback_readsFaultAndCfg _)
  | setDivisor d => cases h
  | move steps rpm now => cases h
  | poll now => cases h
  | stop => cases h
  | velocityMode => cases h
  | readRequest addr reg crc => exact readsFaultAndCfg_prologue (buildRead_readsFaultAndCfg _ _)
  | writeRequest addr reg value crc => exact readsFaultAndCfg_prologue (buildWrite_readsFaultAndCfg _ _ _)
  | reply sync addr reg data crc => exact execReply_readsFaultAndCfg _ _ _ _ _
  | readback echo sync addr reg data crc => exact readsFaultAndCfg_prologue (judgeReadback_readsFaultAndCfg _)

/-- Settles O37: both states have the fault and the parameters that decide the fault and the response. -/
theorem codecNeitherReadsNorWritesMotion : Obligations.CodecNeitherReadsNorWritesMotion := by
  intro i s t s' hcodec h hfault hcfg
  obtain ⟨f, r, hanswer⟩ := exec_readsFaultAndCfg hcodec s.fault s.cfg
  obtain rfl := Host.Outcome.next.inj (h.symm.trans (hanswer s rfl rfl))
  exact ⟨r, rfl, hanswer s' hfault hcfg⟩

/-- The statuses of a verdict on a checksum (R106, R108). -/
theorem verdict_status (p : Prop) [Decidable p] (r₁ r₂ : Result) :
    (if p then Response.mk .ok r₁ else ⟨.checksumMismatch, r₂⟩).status = .ok ∨
      (if p then Response.mk .ok r₁ else ⟨.checksumMismatch, r₂⟩).status = .checksumMismatch := by
  split
  · exact .inl rfl
  · exact .inr rfl

/-- The statuses of R107. -/
theorem readbackResponse_status (order : BitOrder) (bs : List Byte) :
    (readbackResponse order bs).status = .ok ∨ (readbackResponse order bs).status = .shortReply ∨
      (readbackResponse order bs).status = .checksumMismatch := by
  obtain h | h | ⟨v, h⟩ := readbackResponse_cases order bs <;> simp [h]

/-- Settles O22: each legal FC instruction keeps the fault at 0 and adds its response. -/
theorem legalCodecCommandCannotFail : Obligations.LegalCodecCommandCannotFail := by
  intro i s hf hcodec hlegal
  cases i with
  | crc8 bs => exact ⟨_, _, exec_crc8_healthy bs hf, hf, rfl, rfl⟩
  | encodeRead addr reg =>
    obtain ⟨haddr, hreg⟩ := Bool.and_eq_true_iff.1 hlegal
    exact ⟨_, _, exec_encodeRead_legal hf ((legalAddr_iff addr).1 haddr) ((legalReg_iff reg).1 hreg), hf, rfl, rfl⟩
  | encodeWrite addr reg value =>
    obtain ⟨haddr, hreg⟩ := Bool.and_eq_true_iff.1 hlegal
    exact ⟨_, _, exec_encodeWrite_legal value hf ((legalAddr_iff addr).1 haddr) ((legalReg_iff reg).1 hreg), hf, rfl,
      rfl⟩
  | checkFrame bs =>
    obtain rfl | ⟨body, c, rfl⟩ := List.eq_nil_or_concat' bs
    · cases hlegal
    · exact ⟨_, _, exec_checkFrame_concat body c hf, hf, rfl, verdict_status _ _ _⟩
  | validateReadback bs => exact ⟨_, _, exec_validateReadback_healthy bs hf, hf, rfl, readbackResponse_status _ _⟩
  | setDivisor d => cases hcodec
  | move steps rpm now => cases hcodec
  | poll now => cases hcodec
  | stop => cases hcodec
  | velocityMode => cases hcodec
  | readRequest addr reg crc => exact ⟨_, _, exec_readRequest_healthy addr reg crc hf, hf, rfl, rfl⟩
  | writeRequest addr reg value crc => exact ⟨_, _, exec_writeRequest_healthy addr reg value crc hf, hf, rfl, rfl⟩
  | reply sync addr reg data crc =>
    exact ⟨_, _, exec_reply_healthy sync addr reg data crc hf, hf, rfl, verdict_status _ _ _⟩
  | readback echo sync addr reg data crc =>
    exact ⟨_, _, prologue_healthy hf _, hf, rfl, readbackResponse_status _ _⟩

end Sys2Proof.Machine

namespace Sys2Proof.Machine

/-! ### The arithmetic of the step-pulse unit (R130, R132, R133) -/

/-- The source's formula in lowest terms; `0 = 0` where an operand is 0. -/
theorem delayMs_eq (rpm : U32) (mdiv : Nat) : delayMs rpm mdiv = 300 / ((rpm.toNat : Rat) * mdiv) := by
  have hscale : ((rpm.toNat * stepsPerRev * mdiv : Nat) : Rat) / 60 = rpm.toNat * mdiv * (10 / 3) := by
    push_cast [stepsPerRev]
    ring
  rw [delayMs, hscale, div_mul_eq_div_div_swap]
  norm_num

theorem moveDelay_eq (rpm : U32) (mdiv : Nat) :
    moveDelay rpm mdiv = if rpm = 0 then 0 else 300 / ((rpm.toNat : Rat) * mdiv) := by
  rw [moveDelay, delayMs_eq]

/-- A move at some RPM with a divisor has a delay (R136's guard). -/
theorem moveDelay_ne_zero {rpm : U32} {mdiv : Nat} (hrpm : rpm ≠ 0) (hmdiv : mdiv ≠ 0) : moveDelay rpm mdiv ≠ 0 := by
  have hrpm' : rpm.toNat ≠ 0 := fun h => hrpm (BitVec.eq_of_toNat_eq h)
  rw [moveDelay_eq, if_neg hrpm]
  exact div_ne_zero (by norm_num) (mul_ne_zero (Nat.cast_ne_zero.2 hrpm') (Nat.cast_ne_zero.2 hmdiv))

/-- Settles O43: the formula as the source writes it and in lowest terms, and the source's example by the latter. -/
theorem delayIsExact : Obligations.DelayIsExact := by
  refine ⟨fun rpm mdiv _ _ => ⟨?_, delayMs_eq rpm mdiv⟩, ?_⟩
  · simp only [delayMs, stepsPerRev]
    push_cast
    rfl
  · rw [delayMs_eq, show (60 : U32).toNat = 60 from rfl]
    norm_num

/-- The legal divisors are the powers of two up to 256 (R132). -/
theorem legalDiv_iff (d : Nat) : legalDiv d = true ↔ ∃ k ≤ 8, d = 2 ^ k := by
  have hpowers : legalDivisors = (List.range (8 + 1)).map (2 ^ ·) := rfl
  simp only [legalDiv, hpowers, List.contains_iff_mem, List.mem_map, List.mem_range, Nat.lt_add_one_iff,
    eq_comm (a := d)]

theorem mres_two_pow (k : Nat) : mres (2 ^ k) = BitVec.ofNat 4 (8 - k) := by
  rw [mres, Nat.log2_two_pow]

/-- A legal divisor fits its 32 bits. -/
theorem toNat_ofNat_two_pow {k : Nat} (hk : k ≤ 8) : (BitVec.ofNat 32 (2 ^ k)).toNat = 2 ^ k :=
  Nat.mod_eq_of_lt (Nat.pow_lt_pow_right (by decide) (by omega))

/-! ### The step-pulse commands, case by case (R134 to R138) -/

/-- SET_DIVISOR of any other value in a healthy state (R134). -/
theorem exec_setDivisor_illegal {d : U32} {s : State} (hf : s.fault = 0) (hd : ¬legalDiv d.toNat = true) :
    exec (.setDivisor d) s = .next (s.respond .invalidConfig .none) := by
  simp only [exec, execSetDivisor, prologue_healthy hf, if_neg hd]

/-- Settles O44: the powers of two are the legal divisors, and their delay is R130's. -/
theorem setDivisorCommand : Obligations.SetDivisorCommand := by
  intro s hf
  constructor
  · intro k hk
    have hd : legalDiv (BitVec.ofNat 32 (2 ^ k)).toNat = true := (legalDiv_iff _).2 ⟨k, hk, toNat_ofNat_two_pow hk⟩
    rw [exec_setDivisor_legal hf hd, toNat_ofNat_two_pow hk, mres_two_pow, State.loadDivisor, delayMs_eq]
    push_cast
    rfl
  · intro d hd
    refine exec_setDivisor_illegal hf fun hlegal => ?_
    obtain ⟨k, hk, hpow⟩ := (legalDiv_iff _).1 hlegal
    exact hd k hk hpow

/-- MOVE at some RPM before the first divisor (R135). -/
theorem exec_move_notInitialized {rpm : U32} {s : State} (steps : I32) (now : Rat) (hf : s.fault = 0)
    (hinit : rpm ≠ 0 ∧ s.mdiv = 0) : exec (.move steps rpm now) s = .next (s.raise .notInitialized) := by
  simp only [exec, execMove, prologue_healthy hf, if_pos hinit]

/-- The premise of a MOVE that raises no fault (R204) is the negation of the fault's condition. -/
theorem not_uninitialized_iff (rpm : U32) (mdiv : Nat) : ¬(rpm ≠ 0 ∧ mdiv = 0) ↔ rpm = 0 ∨ mdiv ≠ 0 :=
  not_and_or.trans (or_congr_left not_not)

/-- MOVE in DevVel (R135). -/
theorem exec_move_modeBusy {rpm : U32} {s : State} (steps : I32) (now : Rat) (hf : s.fault = 0)
    (hinit : rpm = 0 ∨ s.mdiv ≠ 0) (hmode : s.devVel = true) :
    exec (.move steps rpm now) s = .next (s.respond .modeBusy .none) := by
  simp only [exec, execMove, prologue_healthy hf, if_neg ((not_uninitialized_iff _ _).2 hinit), if_pos hmode]

/-- MOVE carried out (R135). -/
theorem exec_move_carriedOut {rpm : U32} {s : State} (steps : I32) (now : Rat) (hf : s.fault = 0)
    (hinit : rpm = 0 ∨ s.mdiv ≠ 0) (hmode : s.devVel = false) :
    exec (.move steps rpm now) s = .next ((s.startMove steps rpm now).respond .ok .none) :=
  execMove_carriedOut now hf ((not_uninitialized_iff _ _).2 hinit) (Bool.eq_false_iff.1 hmode)

/-- Settles O45: the fault, the refusal, and the move with the draw it uses as `dz`. -/
theorem moveCommand : Obligations.MoveCommand := by
  intro n rpm now s hf
  refine ⟨fun hrpm hmdiv => exec_move_notInitialized n now hf ⟨hrpm, hmdiv⟩,
    exec_move_modeBusy n now hf, fun hinit hmode => ⟨Config.freeDir s.draws, s.draws + 1, ?_⟩⟩
  rw [exec_move_carriedOut n now hf hinit hmode, State.startMove, moveDelay_eq]
  by_cases hn : n = 0
  · simp only [pulseUnless, if_pos hn]
    rfl
  · simp only [pulseUnless, if_neg hn]
    rfl

/-- A POLL with nothing due only responds (R136). -/
theorem exec_poll_inert {now : Rat} {s : State} (hf : s.fault = 0)
    (h : s.devVel = true ∨ s.remaining = 0 ∨ s.delay = 0 ∨ now < s.nextDue) :
    exec (.poll now) s = .next (s.respond .ok .none) := by
  simp only [exec, execPoll, prologue_healthy hf]
  obtain hmode | hremaining | hdelay | hearly := h
  · rw [if_pos hmode]
  · rw [if_pos hremaining, ite_self]
  · rw [if_pos hdelay, ite_self, ite_self]
  · rw [if_neg (not_le.2 hearly), ite_self, ite_self, ite_self]

/-- A due POLL (R136). -/
theorem exec_poll_due {now : Rat} {s : State} (hf : s.fault = 0) (hmode : s.devVel = false)
    (hremaining : s.remaining ≠ 0) (hdelay : s.delay ≠ 0) (hdue : s.nextDue ≤ now) :
    exec (.poll now) s = .next ((s.duePoll now).respond .ok .none) := by
  have hmode' : ¬s.devVel = true := Bool.eq_false_iff.1 hmode
  simp only [exec, execPoll, prologue_healthy hf, if_neg hmode', if_neg hremaining, if_neg hdelay, if_pos hdue]

/-- The POLL that counts the last step off is the one that finds one step remaining. -/
theorem sub_one_eq_zero_iff (n : U32) : n - 1 = 0 ↔ n = 1 := sub_eq_zero

/-- Counting a step off on numbers. -/
theorem toNat_sub_one {n : U32} (h : n ≠ 0) : (n - 1).toNat = n.toNat - 1 := by
  bv_omega

@[simp] theorem State.duePoll_remaining (s : State) (now : Rat) : (s.duePoll now).remaining = s.remaining - 1 := by
  rw [duePoll_eq]

@[simp] theorem State.duePoll_delay (s : State) (now : Rat) : (s.duePoll now).delay = s.delay := by rw [duePoll_eq]

@[simp] theorem State.duePoll_nextDue (s : State) (now : Rat) : (s.duePoll now).nextDue = now + s.delay := by
  rw [duePoll_eq]

@[simp] theorem State.duePoll_devVel (s : State) (now : Rat) : (s.duePoll now).devVel = s.devVel := by rw [duePoll_eq]

@[simp] theorem State.duePoll_dir (s : State) (now : Rat) : (s.duePoll now).dir = s.dir := by rw [duePoll_eq]

@[simp] theorem State.duePoll_trace (s : State) (now : Rat) :
    (s.duePoll now).trace = s.trace ++ pulseUnless (s.remaining - 1 = 0) := by
  rw [duePoll_eq]

/-- Settles O46: the guards of R136, and the due POLL. -/
theorem pollCommand : Obligations.PollCommand := by
  intro now s hf
  refine ⟨exec_poll_inert hf, fun hmode hremaining hdelay hdue => ?_⟩
  have hcount : BitVec.ofNat 32 (s.remaining.toNat - 1) = s.remaining - 1 := by
    rw [← toNat_sub_one hremaining, BitVec.ofNat_toNat, BitVec.setWidth_eq]
  rw [exec_poll_due hf hmode hremaining hdelay hdue, duePoll_eq, hcount]
  simp only [pulseUnless, sub_one_eq_zero_iff, pulses]
  rfl

/-- Only STOP leaves DevVel: the other changes keep `dev_vel`, are guarded by it, or set it. -/
theorem Does.eq_stop_of_leaves_devVel {i : Option Instr} {s : State} {c : Change} {r : Response} (h : Does i s c r)
    (hmode : s.devVel = true) (hleft : (c.apply s).devVel = false) : i = some .stop := by
  have hkept : ¬s.devVel = false := Bool.ne_false_iff.2 hmode
  cases h with
  | refused _ => exact absurd hleft hkept
  | raised _ _ => exact absurd hleft hkept
  | answered _ _ _ => exact absurd hleft hkept
  | setDivisor _ _ => exact absurd hleft hkept
  | move _ _ hguard => exact absurd hmode hguard
  | poll _ hguard _ _ _ => exact absurd hmode hguard
  | stop _ => rfl
  | velocityMode _ => cases hleft

/-- Settles O47: STOP's writes leave nothing for a POLL to do, and no other change leaves DevVel. -/
theorem stopCommand : Obligations.StopCommand := by
  refine ⟨fun s hf => ⟨_, exec_stop_healthy hf, rfl, fun now => exec_poll_inert hf (.inr (.inl rfl))⟩, ?_⟩
  intro i s t hmode h hleft
  obtain ⟨c, r, hdoes, rfl⟩ := exec_next h
  exact Option.some.inj (hdoes.eq_stop_of_leaves_devVel hmode hleft)

/-- Settles O48: VELOCITY_MODE's write meets the guards of POLL and MOVE. -/
theorem velocityModeCommand : Obligations.VelocityModeCommand := fun _ hf =>
  ⟨_, exec_velocityMode_healthy hf, rfl, fun _ => exec_poll_inert hf (.inl rfl),
    fun n _ now hinit => exec_move_modeBusy n now hf hinit rfl⟩

/-! ### The mode (R32, R143) -/

/-- An answer has at most one next state. -/
theorem next_unique {a : Answer} {t u : State} (hu : a = .next u) (ht : a = .next t) : t = u :=
  Host.Outcome.next.inj (ht.symm.trans hu)

/-- Out of DevVel the mode is told by the remaining count. -/
theorem mode_of_devVel_false {s : State} (h : s.devVel = false) :
    s.mode = if s.remaining = 0 then .idle else .moving :=
  if_neg (Bool.eq_false_iff.1 h)

/-- A response leaves the mode. -/
@[simp] theorem State.respond_mode (s : State) (st : Status) (r : Result) : (s.respond st r).mode = s.mode := rfl

theorem mode_eq_devVel_iff (s : State) : s.mode = .devVel ↔ s.devVel = true := by
  cases hv : s.devVel with
  | true => simp only [State.mode, hv, if_true]
  | false =>
    rw [mode_of_devVel_false hv]
    split <;> simp

theorem mode_eq_moving_iff (s : State) : s.mode = .moving ↔ s.devVel = false ∧ s.remaining ≠ 0 := by
  cases hv : s.devVel with
  | true => simp [(mode_eq_devVel_iff s).2 hv]
  | false =>
    rw [mode_of_devVel_false hv]
    split <;> simp_all

/-- A move carried out leaves the unit Moving, unless it has no steps. -/
theorem State.startMove_mode {s : State} (hmode : s.devVel = false) (steps : I32) (rpm : U32) (now : Rat) :
    (s.startMove steps rpm now).mode = if steps = 0 then .idle else .moving := by
  rw [mode_of_devVel_false (s := s.startMove steps rpm now) hmode]
  exact if_congr (absSteps_eq_zero_iff steps) rfl rfl

/-- A due POLL leaves the unit Moving, unless it counted the last step off. -/
theorem State.duePoll_mode {s : State} (hmode : s.devVel = false) (now : Rat) :
    (s.duePoll now).mode = if s.remaining = 1 then .idle else .moving := by
  rw [mode_of_devVel_false ((s.duePoll_devVel now).trans hmode), State.duePoll_remaining]
  exact if_congr (sub_one_eq_zero_iff s.remaining) rfl rfl

/-- MOVE: the fault and the refusal in DevVel keep the mode (R143). -/
theorem exec_move_mode {steps : I32} {rpm : U32} {now : Rat} {s t : State} (hf : s.fault = 0)
    (h : exec (.move steps rpm now) s = .next t) :
    t.mode = if (rpm ≠ 0 ∧ s.mdiv = 0) ∨ s.mode = .devVel then s.mode else if steps = 0 then .idle else .moving := by
  by_cases hinit : rpm ≠ 0 ∧ s.mdiv = 0
  · rw [if_pos (.inl hinit)]
    obtain rfl := next_unique (exec_move_notInitialized steps now hf hinit) h
    rfl
  have hinit' := (not_uninitialized_iff _ _).1 hinit
  cases hmode : s.devVel with
  | true =>
    rw [if_pos (.inr ((mode_eq_devVel_iff s).2 hmode))]
    obtain rfl := next_unique (exec_move_modeBusy steps now hf hinit' hmode) h
    rfl
  | false =>
    have hrunning : ¬s.mode = .devVel := mt (mode_eq_devVel_iff s).1 (Bool.eq_false_iff.1 hmode)
    rw [if_neg (not_or.2 ⟨hinit, hrunning⟩), ← State.startMove_mode hmode steps rpm now]
    obtain rfl := next_unique (exec_move_carriedOut steps now hf hinit' hmode) h
    rfl

/-- POLL: only the due POLL of the last step changes the mode (R143). -/
theorem exec_poll_mode {now : Rat} {s t : State} (hf : s.fault = 0) (h : exec (.poll now) s = .next t) :
    t.mode = if s.mode = .moving ∧ s.remaining = 1 ∧ s.delay ≠ 0 ∧ s.nextDue ≤ now then .idle else s.mode := by
  by_cases hdue : s.mode = .moving ∧ s.delay ≠ 0 ∧ s.nextDue ≤ now
  · obtain ⟨hmoving, hdelay, hnow⟩ := hdue
    obtain ⟨hmode, hremaining⟩ := (mode_eq_moving_iff s).1 hmoving
    obtain rfl := next_unique (exec_poll_due hf hmode hremaining hdelay hnow) h
    simpa [hmoving, hdelay, hnow] using State.duePoll_mode hmode now
  · have hinert : s.devVel = true ∨ s.remaining = 0 ∨ s.delay = 0 ∨ now < s.nextDue := by
      by_contra hno
      simp only [not_or, Bool.not_eq_true, not_lt] at hno
      obtain ⟨hmode, hremaining, hdelay, hnow⟩ := hno
      exact hdue ⟨(mode_eq_moving_iff s).2 ⟨hmode, hremaining⟩, hdelay, hnow⟩
    obtain rfl := next_unique (exec_poll_inert hf hinert) h
    rw [if_neg fun ⟨hmoving, _, hdelay, hnow⟩ => hdue ⟨hmoving, hdelay, hnow⟩]
    rfl

/-- A change that writes neither the count nor `dev_vel` keeps the mode: FC instructions and SET_DIVISOR make no
other. -/
theorem exec_mode_of_codec_or_setDivisor {i : Instr} {s t : State} (hi : isCodec i = true ∨ ∃ d, i = .setDivisor d)
    (h : exec i s = .next t) : t.mode = s.mode := by
  obtain ⟨c, r, hdoes, rfl⟩ := exec_next h
  cases hdoes with
  | refused _ => rfl
  | raised _ _ => rfl
  | answered _ _ _ => rfl
  | setDivisor _ _ => rfl
  | _ => simp [isCodec] at hi

/-- Settles O52: MOVE and POLL case by case, STOP and VELOCITY_MODE by their writes, and reset by its values. -/
theorem modeTransitions : Obligations.ModeTransitions := by
  constructor
  · intro i s t hf h
    cases i with
    | move n rpm now => exact exec_move_mode hf h
    | poll now => exact exec_poll_mode hf h
    | stop =>
      obtain rfl := next_unique (exec_stop_healthy hf) h
      rfl
    | velocityMode =>
      obtain rfl := next_unique (exec_velocityMode_healthy hf) h
      rfl
    | setDivisor d => exact exec_mode_of_codec_or_setDivisor (.inr ⟨d, rfl⟩) h
    | _ => exact exec_mode_of_codec_or_setDivisor (.inl rfl) h
  · intro s t rest hinbox h
    obtain rfl := next_unique (step_of_inbox_reset hinbox) h
    rfl

/-! ### The events of a command (R131, R144) -/

/-- Pulses one after another are those of the first part and then those of the second. -/
theorem pulses_add (m n : Nat) : pulses (m + n) = pulses m ++ pulses n := by
  induction m with
  | zero => rw [Nat.zero_add, pulses, List.nil_append]
  | succ m ih => simp only [Nat.succ_add, pulses, ih, List.cons_append]

theorem pulseUnless_eq_pulses (p : Prop) [Decidable p] : pulseUnless p = pulses (if p then 0 else 1) := by
  unfold pulseUnless
  split <;> rfl

/-- A due POLL emits a pulse as long as steps remain after it. -/
theorem pulseUnless_last {n : U32} (h : n ≠ 0) : pulseUnless (n - 1 = 0) = pulses (min 1 (n.toNat - 1)) := by
  have hlast : n - 1 = 0 ↔ n.toNat - 1 = 0 := by
    rw [← toNat_sub_one h]
    exact BitVec.toNat_inj.symm
  rw [pulseUnless_eq_pulses, if_congr hlast rfl rfl]
  congr 1
  split <;> omega

theorem pulseCount_append (a b : List LineEvent) : pulseCount (a ++ b) = pulseCount a + pulseCount b :=
  List.count_append

theorem pulseCount_dir_cons (v : Bool) (trace : List LineEvent) : pulseCount (.dir v :: trace) = pulseCount trace := by
  simp [pulseCount]

theorem pulseCount_pulses (n : Nat) : pulseCount (pulses n) = n := by
  induction n with
  | zero => rfl
  | succ n ih =>
    rw [Nat.add_comm, pulses_add, pulseCount_append, ih]
    rfl

/-- The events of a command: a MOVE carried out drives DIR and then at most one pulse, a POLL at most one pulse, and
anything else emits nothing and leaves DIR (R144). -/
theorem Does.events_cases {i : Instr} {s : State} {c : Change} {r : Response} (h : Does (some i) s c r) :
    ((c.apply s).dir = s.dir ∧ c.events s = []) ∨
      (∃ n rpm now, i = .move n rpm now ∧ ∃ k, k ≤ 1 ∧ c.events s = .dir (c.apply s).dir :: pulses k) ∨
      ∃ now, i = .poll now ∧ (c.apply s).dir = s.dir ∧ ∃ k, k ≤ 1 ∧ c.events s = pulses k := by
  have hle (p : Prop) [Decidable p] : (if p then 0 else 1) ≤ 1 := by split <;> decide
  cases h with
  | move _ _ _ => exact .inr (.inl ⟨_, _, _, rfl, _, hle _, congrArg _ (pulseUnless_eq_pulses _)⟩)
  | poll _ _ _ _ _ =>
    exact .inr (.inr ⟨_, rfl, s.duePoll_dir _, _, hle _, pulseUnless_eq_pulses _⟩)
  | _ => exact .inl ⟨rfl, rfl⟩

/-- Settles O53: the trace gains the events of the command's change, and reset puts DIR low. -/
theorem dirChangesOnlyInMoveAndReset : Obligations.DirChangesOnlyInMoveAndReset := by
  constructor
  · intro i s t h
    obtain ⟨c, r, hdoes, rfl⟩ := exec_next h
    refine ⟨c.events s, c.apply_trace s, ?_⟩
    obtain ⟨hdir, hnone⟩ | ⟨_, _, _, rfl, hmove⟩ | ⟨_, rfl, hpoll⟩ := hdoes.events_cases
    · cases i with
      | move _ _ _ => exact .inl ⟨hnone, hdir⟩
      | poll _ => exact ⟨hdir, 0, Nat.zero_le 1, hnone⟩
      | _ => exact ⟨hdir, hnone⟩
    · exact .inr hmove
    · exact hpoll
  · intro s t rest hinbox h
    obtain rfl := next_unique (step_of_inbox_reset hinbox) h
    rfl

/-- Settles O55: the events of a change hold at most one pulse. -/
theorem atMostOnePulsePerCommand : Obligations.AtMostOnePulsePerCommand := by
  intro i s t h
  obtain ⟨c, r, hdoes, rfl⟩ := exec_next h
  rw [State.respond_trace, c.apply_trace, pulseCount_append]
  refine Nat.add_le_add_left ?_ _
  obtain ⟨-, hnone⟩ | ⟨_, _, _, -, k, hk, hmove⟩ | ⟨_, -, -, k, hk, hpoll⟩ := hdoes.events_cases
  · rw [hnone]
    exact Nat.zero_le 1
  · rwa [hmove, pulseCount_dir_cons, pulseCount_pulses]
  · rwa [hpoll, pulseCount_pulses]

/-! ### A move and its POLLs (R139, R140) -/

theorem issue_cons {i : Instr} {s u : State} (h : exec i s = .next u) (is : List Instr) :
    issue (i :: is) s = issue is u := by
  rw [issue, h]

/-- While DevVel, no step remaining or no delay keeps POLLs from being due, they only respond. -/
theorem issue_polls_inert {s : State} (hf : s.fault = 0) (h : s.devVel = true ∨ s.remaining = 0 ∨ s.delay = 0)
    (ps : List Rat) : ∃ responses, issue (ps.map .poll) s = .next { s with responses := responses } := by
  induction ps generalizing s with
  | nil => exact ⟨s.responses, rfl⟩
  | cons p ps ih =>
    rw [List.map_cons, issue_cons (exec_poll_inert hf (h.imp_right (Or.imp_right .inl)))]
    exact ih (s := s.respond .ok .none) hf h

/-- What POLLs do to a move that has a delay: each due one counts a step off while steps remain, with a pulse for all
but the last. -/
theorem issue_polls {s : State} (hf : s.fault = 0) (hmode : s.devVel = false) (hdelay : s.delay ≠ 0) (ps : List Rat) :
    ∃ t, issue (ps.map .poll) s = .next t ∧
      t.trace = s.trace ++ pulses (min (dueCount s.delay s.nextDue ps) (s.remaining.toNat - 1)) ∧
      t.remaining.toNat = s.remaining.toNat - min (dueCount s.delay s.nextDue ps) s.remaining.toNat := by
  induction ps generalizing s with
  | nil => exact ⟨s, rfl, by simp [dueCount, pulses], by simp [dueCount]⟩
  | cons p ps ih =>
    by_cases hremaining : s.remaining = 0
    · obtain ⟨responses, hissue⟩ := issue_polls_inert hf (.inr (.inl hremaining)) (p :: ps)
      exact ⟨_, hissue, by simp [hremaining, pulses], by simp [hremaining]⟩
    rw [List.map_cons, dueCount]
    by_cases hdue : s.nextDue ≤ p
    · rw [issue_cons (exec_poll_due hf hmode hremaining hdelay hdue), if_pos hdue]
      obtain ⟨t, hissue, htrace, hcount⟩ := ih (s := (s.duePoll p).respond .ok .none) ((s.duePoll_fault p).trans hf)
        ((s.duePoll_devVel p).trans hmode) ((s.duePoll_delay p).trans_ne hdelay)
      simp only [State.respond_trace, State.respond_remaining, State.respond_delay, State.respond_nextDue,
        State.duePoll_trace, State.duePoll_remaining, State.duePoll_delay, State.duePoll_nextDue,
        toNat_sub_one hremaining, pulseUnless_last hremaining, List.append_assoc, ← pulses_add] at htrace hcount
      refine ⟨t, hissue, ?_, ?_⟩
      · rw [htrace]
        congr 2
        omega
      · rw [hcount]
        omega
    · rw [issue_cons (exec_poll_inert hf (.inr (.inr (.inr (not_le.1 hdue))))), if_neg hdue]
      exact ih (s := s.respond .ok .none) hf hmode hdelay

/-- The DIR level of a move that has steps is their sign (R135). -/
theorem moveDir_of_ne_zero {steps : I32} (h : steps ≠ 0) (dz : Bool) : moveDir steps dz = decide (0 < steps.toInt) := by
  have hsign : steps.toInt ≠ 0 := fun h0 => h (BitVec.eq_of_toInt_eq h0)
  unfold moveDir
  split
  · simp [*]
  · rw [if_pos (by omega)]
    simp [*]

theorem State.startMove_remaining (s : State) (steps : I32) (rpm : U32) (now : Rat) :
    (s.startMove steps rpm now).remaining = absSteps steps := rfl

theorem State.startMove_delay (s : State) (steps : I32) (rpm : U32) (now : Rat) :
    (s.startMove steps rpm now).delay = moveDelay rpm s.mdiv := rfl

theorem State.startMove_nextDue {rpm : U32} (hrpm : rpm ≠ 0) (s : State) (steps : I32) (now : Rat) :
    (s.startMove steps rpm now).nextDue = now + moveDelay rpm s.mdiv :=
  if_neg hrpm

theorem State.startMove_trace {steps : I32} (hsteps : steps ≠ 0) (s : State) (rpm : U32) (now : Rat) :
    (s.startMove steps rpm now).trace = s.trace ++ .dir (decide (0 < steps.toInt)) :: pulses 1 := by
  simp only [State.startMove, moveDir_of_ne_zero hsteps, pulseUnless, if_neg hsteps]

/-- POLLs that are each one delay after the one before are all due. -/
theorem dueCount_onTime (delay t0 : Rat) (m : Nat) : dueCount delay (t0 + delay) (onTime delay t0 m) = m := by
  induction m generalizing t0 with
  | zero => rfl
  | succ m ih => rw [onTime, dueCount, if_pos le_rfl, ih]

/-- A move that has steps and a delay, and its POLLs: the DIR level, the move's own pulse, and those of the POLLs. -/
theorem issue_move_polls {s : State} {n : I32} {rpm : U32} (t0 : Rat) (hf : s.fault = 0) (hmode : s.devVel = false)
    (hmdiv : s.mdiv ≠ 0) (hn : n ≠ 0) (hrpm : rpm ≠ 0) (ps : List Rat) :
    ∃ t, issue (.move n rpm t0 :: ps.map .poll) s = .next t ∧
      t.trace = s.trace ++ .dir (decide (0 < n.toInt)) ::
        pulses (1 + min (dueCount (moveDelay rpm s.mdiv) (t0 + moveDelay rpm s.mdiv) ps) (n.toInt.natAbs - 1)) ∧
      t.remaining.toNat =
        n.toInt.natAbs - min (dueCount (moveDelay rpm s.mdiv) (t0 + moveDelay rpm s.mdiv) ps) n.toInt.natAbs := by
  obtain ⟨t, hissue, htrace, hcount⟩ := issue_polls (s := (s.startMove n rpm t0).respond .ok .none) hf hmode
    (moveDelay_ne_zero hrpm hmdiv) ps
  rw [issue_cons (exec_move_carriedOut n t0 hf (.inr hmdiv) hmode)]
  simp only [State.respond_trace, State.respond_remaining, State.respond_delay, State.respond_nextDue,
    State.startMove_trace hn, State.startMove_nextDue hrpm, State.startMove_remaining, State.startMove_delay,
    absSteps_toNat, List.append_assoc, List.cons_append, ← pulses_add] at htrace hcount
  exact ⟨t, hissue, htrace, hcount⟩

/-- Settles O50: POLLs on time are all due, so `|steps|` of them exhaust the count. -/
theorem moveEmitsItsPulses : Obligations.MoveEmitsItsPulses := by
  intro s n rpm t0 hf hmode hmdiv hn hrpm delay count
  have hdelay : moveDelay rpm s.mdiv = delay := by rw [moveDelay_eq, if_neg hrpm]
  have hcount : count ≠ 0 := fun h => hn (BitVec.eq_of_toInt_eq (Int.natAbs_eq_zero.1 h))
  have hmove := hdelay ▸ issue_move_polls t0 hf hmode hmdiv hn hrpm
  refine ⟨hmove, dueCount_onTime delay t0, ?_⟩
  obtain ⟨t, hissue, htrace, hremaining⟩ := hmove (onTime delay t0 count)
  rw [dueCount_onTime] at htrace hremaining
  refine ⟨t, hissue, ?_, ?_⟩
  · rw [htrace, pulseCount_append, pulseCount_dir_cons, pulseCount_pulses]
    omega
  · apply BitVec.eq_of_toNat_eq
    rw [hremaining, Nat.min_self, Nat.sub_self]
    rfl

/-- The first pulse of a move: one when it has steps. -/
theorem pulseCount_startMove (s : State) (n : I32) (rpm : U32) (now : Rat) :
    pulseCount (s.startMove n rpm now).trace = pulseCount s.trace + if n = 0 then 0 else 1 := by
  rw [State.startMove, pulseCount_append, pulseCount_dir_cons, pulseUnless_eq_pulses, pulseCount_pulses]

/-- Settles O51: without a delay POLLs are inert, and without steps there is no first pulse. -/
theorem oneShotAndEmptyMoves : Obligations.OneShotAndEmptyMoves := by
  intro s t0 hf hmode
  constructor
  · intro n ps hn
    obtain ⟨responses, hissue⟩ := issue_polls_inert (s := (s.startMove n 0 t0).respond .ok .none) hf
      (.inr (.inr rfl)) ps
    rw [issue_cons (exec_move_carriedOut n t0 hf (.inl rfl) hmode)]
    exact ⟨_, hissue, (pulseCount_startMove s n 0 t0).trans (by rw [if_neg hn]), absSteps_toNat n,
      (State.startMove_mode hmode n 0 t0).trans (if_neg hn)⟩
  · intro rpm hinit
    exact ⟨_, exec_move_carriedOut 0 t0 hf hinit hmode, pulseCount_startMove s 0 rpm t0, rfl,
      State.startMove_mode hmode 0 rpm t0⟩

end Sys2Proof.Machine

namespace Sys2Proof.Machine

/-! ### Records that a step takes (R73, R173) -/

/-- A record whose op byte R72 does not list is taken from the inbox as an illegal command, whatever its operands. -/
theorem step_of_operandKinds_none {s : State} {rest : List Input} {op : Byte} {operands : List Operand}
    (hinbox : s.inbox = .record (.command op operands) :: rest) (hop : operandKinds op = none) :
    step s = illegalCommand { s with inbox := rest } :=
  (step_of_inbox_record hinbox).trans
    (issueRecord_of_illegalOp (s := { s with inbox := rest }) ((decodeCommand_illegal_iff op operands).2 hop))

/-- A record issued to a next state was decoded to an instruction, or to an illegal op. -/
theorem issueRecord_next {r : Record} {s t : State} (h : issueRecord r s = .next t) :
    (∃ i, decode s.cfg r = .ok i ∧ exec i s = .next t) ∨
      ∃ op, decode s.cfg r = .error (.illegalOp op) ∧ illegalCommand s = .next t := by
  match hdecode : decode s.cfg r with
  | .ok i => exact .inl ⟨i, rfl, (issueRecord_of_decode_ok hdecode).symm.trans h⟩
  | .error (.illegalOp op) => exact .inr ⟨op, rfl, (issueRecord_of_illegalOp hdecode).symm.trans h⟩
  | .error (.operandMismatch _) => exact nomatch (issueRecord_of_operandMismatch hdecode).symm.trans h
  | .error .notAFrame => exact nomatch (issueRecord_of_notAFrame hdecode).symm.trans h

/-- Settles O16: the prologue refuses an instruction and an illegal op alike, and lets the latter raise its fault in a
healthy state. -/
theorem latchedFaultRefusesEveryCommand : Obligations.LatchedFaultRefusesEveryCommand := by
  refine ⟨fun i _ hf => exec_latched i hf, fun s rest op operands hinbox hop => ?_⟩
  rw [step_of_operandKinds_none hinbox hop]
  exact ⟨illegalCommand_latched (s := { s with inbox := rest }),
    illegalCommand_healthy (s := { s with inbox := rest })⟩

/-! ### Taking a fault (R100, R172) -/

/-- Of all changes a command may make in a healthy state, only latching a code leaves a fault; the response is FAULTED
with that code. -/
theorem Does.eq_latch_of_fault {i : Option Instr} {s : State} {c : Change} {r : Response} (h : Does i s c r)
    (hf : s.fault = 0) (hraised : (c.apply s).fault ≠ 0) :
    ∃ f : FaultCode, c = .latch f ∧ r = ⟨.faulted, .code f.code⟩ := by
  cases h with
  | raised f _ => exact ⟨f, rfl, rfl⟩
  | poll _ _ _ _ _ => exact absurd ((s.duePoll_fault _).trans hf) hraised
  | _ => exact absurd hf hraised

/-- A meaning that leaves a fault it did not find has raised it, and done nothing else. -/
theorem Performs.eq_raise {i : Option Instr} {meaning : State → Answer} {s t : State} (h : Performs i meaning s)
    (hf : s.fault = 0) (ht : meaning s = .next t) (hraised : t.fault ≠ 0) : ∃ f : FaultCode, t = s.raise f := by
  obtain ⟨c, r, hdoes, rfl⟩ := h.next ht
  obtain ⟨f, rfl, rfl⟩ := hdoes.eq_latch_of_fault hf hraised
  exact ⟨f, rfl⟩

/-- A record, one with an illegal op among them, that leaves a fault it did not find has raised it, and done nothing
else. -/
theorem issueRecord_eq_raise {r : Record} {s t : State} (hf : s.fault = 0) (h : issueRecord r s = .next t)
    (hraised : t.fault ≠ 0) : ∃ f : FaultCode, t = s.raise f := by
  obtain ⟨i, -, hexec⟩ | ⟨_, -, hillegal⟩ := issueRecord_next h
  · exact (exec_performs i s).eq_raise hf hexec hraised
  · exact (illegalCommand_performs s).eq_raise hf hillegal hraised

/-- Settles O18: a fault newly latched was taken by R172, which writes only the code and the response. -/
theorem faultEntryIsPrecise : Obligations.FaultEntryIsPrecise := by
  constructor
  · intro i s t hf h hraised
    obtain ⟨f, rfl⟩ := (exec_performs i s).eq_raise hf h hraised
    rfl
  · intro r rest s t hf hinbox h hraised
    rw [step_of_inbox_record hinbox] at h
    obtain ⟨f, rfl⟩ := issueRecord_eq_raise (s := { s with inbox := rest }) hf h hraised
    rfl

/-! ### The causes of a fault (R171, R176) -/

/-- The code that an instruction raises in a healthy state, 0 for none (R171, R176). -/
def raisedCode (s : State) : Instr → Byte
  | .encodeRead addr reg => if 4 ≤ addr.toNat then 0x02 else if 0x80 ≤ reg.toNat then 0x03 else 0x00
  | .encodeWrite addr reg _ => if 4 ≤ addr.toNat then 0x02 else if 0x80 ≤ reg.toNat then 0x03 else 0x00
  | .checkFrame bs => if bs = [] then 0x04 else 0x00
  | .move _ rpm _ => if rpm ≠ 0 ∧ s.mdiv = 0 then 0x05 else 0x00
  | _ => 0x00

/-- No instruction raises ILLEGAL_COMMAND. -/
theorem raisedCode_ne_illegalCommand (s : State) (i : Instr) : raisedCode s i ≠ 0x01 := by
  fun_cases raisedCode s i <;> decide

/-- The address checks raise their codes in R176's order, and no code when the rest of the command raises none. -/
theorem withLegalTarget_fault {addr reg : Byte} {s : State} {body : State → Answer}
    (hbody : Ensures (body s) fun t => t.fault = 0x00) :
    Ensures (withLegalTarget addr reg s body) fun t =>
      t.fault = if 4 ≤ addr.toNat then 0x02 else if 0x80 ≤ reg.toNat then 0x03 else 0x00 := by
  obtain ⟨haddr, h⟩ | ⟨haddr, hreg, h⟩ | ⟨haddr, hreg, h⟩ := withLegalTarget_cases addr reg s body <;> rw [h]
  · exact ensures_next.2 (if_pos haddr).symm
  · rw [if_neg haddr.not_ge, if_pos hreg]
    exact ensures_next.2 rfl
  · rwa [if_neg haddr.not_ge, if_neg hreg.not_ge]

/-- CHECK_FRAME raises BAD_LENGTH for no bytes (R106). -/
theorem exec_checkFrame_fault (bs : List Byte) {s : State} (hf : s.fault = 0) :
    Ensures (exec (.checkFrame bs) s) fun t => t.fault = if bs = [] then 0x04 else 0x00 := by
  obtain rfl | ⟨body, c, rfl⟩ := List.eq_nil_or_concat' bs
  · exact exec_checkFrame_nil hf ▸ ensures_next.2 rfl
  · rw [if_neg (List.append_ne_nil_of_right_ne_nil body (List.cons_ne_nil c [])), exec_checkFrame_concat body c hf]
    exact ensures_next.2 hf

/-- MOVE raises NOT_INITIALIZED for an RPM without a divisor (R135). -/
theorem exec_move_fault (steps : I32) (rpm : U32) (now : Rat) {s : State} (hf : s.fault = 0) :
    Ensures (exec (.move steps rpm now) s) fun t => t.fault = if rpm ≠ 0 ∧ s.mdiv = 0 then 0x05 else 0x00 := by
  by_cases hinit : rpm ≠ 0 ∧ s.mdiv = 0
  · rw [if_pos hinit, exec_move_notInitialized steps now hf hinit]
    exact ensures_next.2 rfl
  rw [if_neg hinit]
  have hinit' := (not_uninitialized_iff _ _).1 hinit
  cases hmode : s.devVel with
  | true => exact exec_move_modeBusy steps now hf hinit' hmode ▸ ensures_next.2 hf
  | false => exact exec_move_carriedOut steps now hf hinit' hmode ▸ ensures_next.2 hf

/-- SET_DIVISOR raises no fault, not for an illegal divisor either (R134). -/
theorem exec_setDivisor_fault (d : U32) {s : State} (hf : s.fault = 0) :
    Ensures (exec (.setDivisor d) s) fun t => t.fault = 0x00 := by
  by_cases hd : legalDiv d.toNat = true
  · exact exec_setDivisor_legal hf hd ▸ ensures_next.2 hf
  · exact exec_setDivisor_illegal hf hd ▸ ensures_next.2 hf

/-- POLL raises no fault, due or not (R136). -/
theorem execPoll_fault (now : Rat) {s : State} (hf : s.fault = 0) :
    Ensures (execPoll now s) fun t => t.fault = 0x00 := by
  have hinert : Ensures (.next (s.respond .ok .none)) fun t => t.fault = 0x00 := ensures_next.2 hf
  have hdue : Ensures (.next ((s.duePoll now).respond .ok .none)) fun t => t.fault = 0x00 :=
    ensures_next.2 ((s.duePoll_fault now).trans hf)
  refine ensures_prologue (fun hlatched => absurd hf hlatched) fun _ => ?_
  exact ensures_ite (fun _ => hinert) fun _ => ensures_ite (fun _ => hinert) fun _ =>
    ensures_ite (fun _ => hinert) fun _ => ensures_ite (fun _ => hdue) fun _ => hinert

/-- In a healthy state the fault after an instruction is the code it raises. -/
theorem exec_fault (i : Instr) {s : State} (hf : s.fault = 0) :
    Ensures (exec i s) fun t => t.fault = raisedCode s i := by
  cases i with
  | crc8 bs => exact exec_crc8_healthy bs hf ▸ ensures_next.2 hf
  | encodeRead addr reg => exact exec_encodeRead_healthy addr reg hf ▸ withLegalTarget_fault (ensures_next.2 hf)
  | encodeWrite addr reg value =>
    exact exec_encodeWrite_healthy addr reg value hf ▸ withLegalTarget_fault (ensures_next.2 hf)
  | checkFrame bs => exact exec_checkFrame_fault bs hf
  | validateReadback bs => exact exec_validateReadback_healthy bs hf ▸ ensures_next.2 hf
  | setDivisor d => exact exec_setDivisor_fault d hf
  | move steps rpm now => exact exec_move_fault steps rpm now hf
  | poll now => exact execPoll_fault now hf
  | stop => exact exec_stop_healthy hf ▸ ensures_next.2 hf
  | velocityMode => exact exec_velocityMode_healthy hf ▸ ensures_next.2 hf
  | readRequest addr reg crc => exact exec_readRequest_healthy addr reg crc hf ▸ ensures_next.2 hf
  | writeRequest addr reg value crc => exact exec_writeRequest_healthy addr reg value crc hf ▸ ensures_next.2 hf
  | reply sync addr reg data crc => exact exec_reply_healthy sync addr reg data crc hf ▸ ensures_next.2 hf
  | readback echo sync addr reg data crc =>
    exact exec_readback_healthy echo sync addr reg data crc hf ▸ ensures_next.2 hf

/-- In a healthy state a command record raises ILLEGAL_COMMAND exactly for an op byte outside R72 (R73). -/
theorem issueRecord_command_fault_iff {op : Byte} {operands : List Operand} {s : State} (hf : s.fault = 0) :
    Ensures (issueRecord (.command op operands) s) fun t => t.fault = 0x01 ↔ operandKinds op = none := by
  intro t h
  obtain ⟨i, hdecode, hexec⟩ | ⟨op', hdecode, hillegal⟩ := issueRecord_next h
  · have hlegal := (exists_decodeCommand_ok_iff op operands).1 ⟨i, hdecode⟩
    refine iff_of_false ?_ fun hnone => nomatch hlegal.symm.trans hnone
    exact exec_fault i hf t hexec ▸ raisedCode_ne_illegalCommand s i
  · obtain hop | hop := decodeCommand_error hdecode
    · obtain rfl := next_unique (illegalCommand_healthy hf) hillegal
      exact iff_of_true rfl ((decodeCommand_illegal_iff op operands).1 (hdecode.trans (congrArg _ hop)))
    · exact nomatch hop

/-- Settles O19: the code of each instruction, none of them ILLEGAL_COMMAND, which is the illegal op's alone. -/
theorem faultCausesAreTheTables : Obligations.FaultCausesAreTheTables := by
  constructor
  · intro i s t hf h
    exact (exec_fault i hf t h).trans (by cases i <;> rfl)
  · intro s t rest op operands hf hinbox h
    rw [step_of_inbox_record hinbox] at h
    exact issueRecord_command_fault_iff (s := { s with inbox := rest }) hf t h

/-! ### A latched fault and the next reset (R23, R174) -/

/-- With a fault latched, a command's change keeps the code. -/
theorem Does.keeps_latched {i : Option Instr} {s : State} {c : Change} {r : Response} (h : Does i s c r)
    (hf : s.fault ≠ 0) : (c.apply s).fault = s.fault := by
  cases h with
  | refused _ => rfl
  | _ => exact absurd ‹s.fault = 0› hf

/-- With a fault latched, a record keeps the code, whatever the decoder makes of it. -/
theorem issueRecord_keeps_latched (r : Record) {s : State} (hf : s.fault ≠ 0) :
    Ensures (issueRecord r s) fun t => t.fault = s.fault :=
  issueRecord_ensures r (fun _ _ _ h => h) fun _ _ _ hdoes => hdoes.keeps_latched hf

/-- Settles O20: by the input the step takes. -/
theorem faultStaysLatchedUntilReset : Obligations.FaultStaysLatchedUntilReset := by
  intro s t hf h
  match hinbox : s.inbox with
  | [] =>
    obtain rfl := next_unique (step_of_inbox_nil hinbox) h
    exact ⟨nofun, fun _ => rfl⟩
  | .record r :: rest =>
    rw [step_of_inbox_record hinbox] at h
    exact ⟨nofun, fun _ => issueRecord_keeps_latched r (s := { s with inbox := rest }) hf t h⟩
  | .reset :: rest =>
    obtain rfl := next_unique (step_of_inbox_reset hinbox) h
    exact ⟨fun _ => rfl, fun hno => absurd ⟨rest, rfl⟩ hno⟩
  | .resetDuring _ :: _ => exact nomatch (step_of_inbox_resetDuring hinbox).symm.trans h

/-! ### The idle step and the numeric codes (R8, R182, R171, R175) -/

/-- Settles O9: a step without an input is idle. -/
theorem idleHoldsItsState : Obligations.IdleHoldsItsState :=
  fun _ => step_of_inbox_nil

/-- Settles O24, by the two code functions. -/
theorem statusAndFaultCodes : Obligations.StatusAndFaultCodes :=
  ⟨rfl, rfl, rfl, rfl, rfl, rfl, rfl, rfl, rfl, rfl, rfl⟩

end Sys2Proof.Machine

namespace Sys2Proof.Machine

/-! ### The host's side: where a step stops, allowed commands, reset and power-on (R200, R201, R204, R205) -/

/-- What performs a change answers a next state. -/
theorem Performs.exists_next {i : Option Instr} {meaning : State → Answer} {s : State} (h : Performs i meaning s) :
    ∃ t, meaning s = .next t := by
  obtain ⟨c, r, -, hanswer⟩ := h
  exact ⟨_, hanswer s.trace s.responses⟩

/-- A record that decodes, or has an illegal op, answers a next state; any other is refused by name (log entry 8). -/
theorem issueRecord_next_or_refused (r : Record) (s : State) :
    (∃ t, issueRecord r s = .next t ∧ ∀ e, decode s.cfg r = .error e → ∃ op, e = .illegalOp op) ∨
      ∃ f e, issueRecord r s = .refused f ∧ decode s.cfg r = .error e ∧ ∀ op, e ≠ .illegalOp op := by
  match hdecode : decode s.cfg r with
  | .ok i =>
    obtain ⟨t, ht⟩ := (exec_performs i s).exists_next
    exact .inl ⟨t, (issueRecord_of_decode_ok hdecode).trans ht, nofun⟩
  | .error (.illegalOp op) =>
    obtain ⟨t, ht⟩ := (illegalCommand_performs s).exists_next
    exact .inl ⟨t, (issueRecord_of_illegalOp hdecode).trans ht, fun _ h => ⟨op, (Except.error.inj h).symm⟩⟩
  | .error (.operandMismatch _) => exact .inr ⟨_, _, issueRecord_of_operandMismatch hdecode, rfl, nofun⟩
  | .error .notAFrame => exact .inr ⟨_, _, issueRecord_of_notAFrame hdecode, rfl, nofun⟩

/-- No record stops the machine with a fault of its own. -/
theorem issueRecord_ne_fault (r : Record) (s : State) (f : Fault) : issueRecord r s ≠ .fault f := by
  obtain ⟨_, h, -⟩ | ⟨_, _, h, -⟩ := issueRecord_next_or_refused r s <;> simp [h]

/-- The records refused are those that decode neither to an instruction nor to an illegal op. -/
theorem issueRecord_refused_iff (r : Record) (s : State) :
    (∃ f, issueRecord r s = .refused f) ↔ ∃ e, decode s.cfg r = .error e ∧ ∀ op, e ≠ .illegalOp op := by
  obtain ⟨t, hnext, hlegal⟩ | ⟨f, e, hrefused, hdecode, he⟩ := issueRecord_next_or_refused r s
  · refine iff_of_false (by simp [hnext]) fun ⟨e, hdecode, he⟩ => ?_
    obtain ⟨op, hop⟩ := hlegal e hdecode
    exact he op hop
  · exact iff_of_true ⟨f, hrefused⟩ ⟨e, hdecode, he⟩

/-- Settles O13: by the input the step takes; only a record can be refused, and it never faults the machine. -/
theorem stepStopsOnlyOutsideTheSpec : Obligations.StepStopsOnlyOutsideTheSpec := by
  intro s
  match hinbox : s.inbox with
  | [] => simp [step_of_inbox_nil hinbox]
  | .record r :: rest => simp [step_of_inbox_record hinbox, issueRecord_ne_fault, issueRecord_refused_iff]
  | .reset :: rest => simp [step_of_inbox_reset hinbox]
  | .resetDuring r :: rest =>
    rw [step_of_inbox_resetDuring hinbox]
    exact ⟨iff_of_true ⟨_, rfl⟩ ⟨r, rest, rfl⟩, iff_of_false nofun nofun⟩

/-- The address checks raise no code for a legal driver address and a legal register (R79, R80). -/
theorem targetCode_of_legal {addr reg : Byte} (h : (legalAddr addr && legalReg reg) = true) :
    (if 4 ≤ addr.toNat then 0x02 else if 0x80 ≤ reg.toNat then 0x03 else 0x00 : Byte) = 0x00 := by
  obtain ⟨haddr, hreg⟩ := Bool.and_eq_true_iff.1 h
  rw [if_neg ((legalAddr_iff addr).1 haddr).not_ge, if_neg ((legalReg_iff reg).1 hreg).not_ge]

/-- An instruction with legal operands, and a divisor set before a MOVE with an RPM, raises no code. -/
theorem raisedCode_of_allowedIn {s : State} {i : Instr} (h : allowedIn s i = true) : raisedCode s i = 0x00 := by
  obtain ⟨hwf, hmove⟩ := Bool.and_eq_true_iff.1 h
  cases i with
  | encodeRead addr reg => exact targetCode_of_legal hwf
  | encodeWrite addr reg value => exact targetCode_of_legal hwf
  | checkFrame bs =>
    refine if_neg ?_
    rintro rfl
    exact nomatch hwf
  | move steps rpm now => exact if_neg ((not_uninitialized_iff rpm s.mdiv).2 (by simpa using hmove))
  | _ => rfl

/-- Settles O21: the next state of an allowed instruction latches the code it raises, which is none. -/
theorem allowedCommandRaisesNoFault : Obligations.AllowedCommandRaisesNoFault := by
  intro i s hf hallowed
  obtain ⟨t, ht⟩ := everyInstructionAnswersNext i s
  exact ⟨t, ht, (exec_fault i hf t ht).trans (raisedCode_of_allowedIn hallowed)⟩

/-- Settles O10: a reset writes what `State.applyReset` says and leaves the draws, and without one a latched fault
stays (O20). -/
theorem resetInputClears : Obligations.ResetInputClears := by
  constructor
  · intro s rest hinbox
    exact ⟨_, s.draws, step_of_inbox_reset hinbox, rfl, rfl⟩
  · intro s t hf h hcleared
    by_contra hno
    exact hf (((faultStaysLatchedUntilReset s t hf h).2 hno).symm.trans hcleared)

/-- Settles O58: the one RESET of power-on holds no edge of STEP and leaves both lines low. -/
theorem traceInvAfterPowerOn : Obligations.TraceInvAfterPowerOn :=
  ⟨rfl, rfl⟩

end Sys2Proof.Machine
